-- ==== Sys2Proof/Word.lean ====
section
/-! DEFINITION. The word types of the Vydex machine: scalar registers are 64-bit words (R54), syllables are
32 bits (R47), a vector register is 8 KiB (R15), a mask holds one bit for each byte-sized element (R225), a
scale register 64 bytes (R109), a parameter register 128 bits (R134). Addresses while they key memory are
plain numbers. -/

namespace Sys2Proof

abbrev Word := BitVec 64
abbrev Byte := BitVec 8
abbrev Syllable := BitVec 32
/-- A vector register: byte `b` of the register is bits `[8b+7:8b]` (R225, R361). -/
abbrev VecVal := BitVec 65536
/-- A mask register: bit `i` belongs to element `i` of the tile (R325). -/
abbrev MaskVal := BitVec 8192
/-- A scale register: scale `j` is byte `j` (R109, R342). -/
abbrev ScaleVal := BitVec 512

/-- Scalar register number s0 to s63 (R54). -/
abbrev SReg := Fin 64
/-- Predicate register number p0 to p7 (R54). -/
abbrev PReg := Fin 8
/-- Vector register number v0 to v31 (R59). -/
abbrev VReg := Fin 32
/-- Mask register number m0 to m15 (R59). -/
abbrev MReg := Fin 16
/-- Mask guard m0 to m7 (R34, R59). -/
abbrev MGuard := Fin 8
/-- Scale register number e0 to e15 (R67). -/
abbrev EReg := Fin 16
/-- Parameter register number a0 to a7 (R134). -/
abbrev AReg := Fin 8
/-- Bank number of a cluster, 0 to 63 (R14). -/
abbrev Bank := Fin 64

end Sys2Proof
end

