-- ==== Sys2Proof/Config.lean ====
section
/-! DEFINITION. What is fixed for the modelled part (the TN6-A4L of R2), and the free values: constants with
no body, for what the manual leaves open, so that no proof can see what they are. -/

namespace Sys2Proof.Config

/-- The feature bitmap VYFEAT of the TN6: bits 0 to 10 are implemented (R75). -/
def vyfeat : Word := 0x7FF#64
/-- The revision register VYREV of the TN6 (R75). -/
def vyrev : Word := 0x3#64
/-- Bytes of a scratchpad bank: 3 MiB (R2, R14). -/
def bankBytes : Nat := 0x300000
/-- LEASE of R175. -/
def lease : Nat := 64
/-- Lines of an L1 data cache of 128 KiB and of an L2 slice of 64 MiB, and the most that are pinned in a slice (R156,
R157). -/
def l1Lines : Nat := 2048
/-- Lines of an instruction cache of 64 KiB (R15); that its lines have 64 bytes too is log entry 8. -/
def icacheLines : Nat := 1024
def l2Lines : Nat := 1048576
def l2Pins : Nat := 786432
/-- Cycles after which an L1 drops a shared copy (R176). -/
def l1Age : Nat := 16384
/-- Least latency of an M0 result (R71). -/
def m0Latency : Nat := 8
/-- Cycles between the last bundle of a leaving context and the first of the chosen one (R89). -/
def switchDelay : Nat := 3
/-- Ticks of 1 microsecond after which an ephemeral row reads poisoned (R159). -/
def ephTicks : Nat := 24000
/-- The quiesce window of R220 in cycles. -/
def quiesceWindow : Nat := 1024

/-- Cycles by which an M0 access exceeds its least latency (R71): a free value (log entry 5). -/
opaque m0Extra : Nat → Nat
/-- Which of the enabled agents moves next (R11 "may", R188, R204): a free choice, one for each value of the
machine's counter of free values (log entry 4, DESIGN CHOICE). -/
opaque choose : Nat → Nat
/-- The least MODULE number among the modules to which the partner of a number leads by links in aligned mode (R257), which no
rule lets a module learn: a free value (log entry 21). -/
opaque beyond : Nat → Nat
/-- The link by which the copies of a module that is no direct partner go (R201, R253): a free value (log entry 74). -/
opaque route : Nat → Nat
/-- The CRC-64 of bytes 0 to 247 of a flit (R253), whose polynomial the manual does not give (log entry 75). -/
opaque crc64 : Nat → BitVec 64
/-- The thermal model of the firmware (R259): the temperature of a die in thousandths of a degree from its tower, class
and index, the power of its rails in mW and the coolant's temperature. The manual does not give it (log entry 76). -/
opaque thermal : Nat → Nat → Nat → Nat → Int → Int
/-- The content of a byte that the manual leaves undefined (R11, R205, R220, R295): a free value for each
value of the counter of free values (log entry 10, DESIGN CHOICE). -/
opaque freeByte : Nat → Byte
/-- A free word, as `freeByte`, for an effect the manual leaves open on a whole value (log entry 10). -/
opaque freeNat : Nat → Nat
/-- Whether the host port trains with CXL at a power-on (R250): a free value (log entry 24). -/
opaque cxlTrains : Nat → Bool
/-- Whether the firmware slot that is to boot verifies at a reset (R263): a free value (log entry 10). -/
opaque slotVerifies : Nat → Bool
/-- The fuse configuration that attestation reports (R264), which the manual does not give (log entry 10). -/
opaque fuses : Nat
/-- The digest of a collective's OP, FMT, NM and TILES, whose function the manual does not give (R268, log entry
17). -/
opaque collDigest : Nat → Nat

end Sys2Proof.Config
end

