-- ==== Sys2Proof/Syntax.lean ====
section
/-! DEFINITION. The instructions: one constructor for each row of spec/opcode_table.json, 223 syllables with
the operands of their encodings (R54 to R70) and 62 events of the device, whose arguments carry what the
outside world brings to the event. An extendable immediate (R49) is the number it denotes. Hint bits (R53) are
no operands, since the device does not act on them. -/

namespace Sys2Proof

/-- The V fmt field (R60). -/
inductive VFmt where
  | f32 | bf16 | f16 | e4m3 | e5m2 | i32 | i16 | i8
  deriving DecidableEq, Repr

/-- The function code of MLOG and PLOG (R325, R330). -/
inductive LogFn where
  | and | or | xor | andn | orn | nand | nor | xnor
  deriving DecidableEq, Repr

/-- Rounding modifiers (R35, R106). -/
inductive Rounding where
  | rne | rz | rs
  deriving DecidableEq, Repr

/-- The operator of VRED, VREDC and VSCAN (R375). -/
inductive RedOp where
  | add | max | min
  deriving DecidableEq, Repr

/-- The packed code of VPACK and VUNPK (R371). -/
inductive PackFmt where
  | e2m1 | e2m3 | e3m2 | o4 | o8
  deriving DecidableEq, Repr

/-- The format of a special-function syllable (R62). -/
inductive SfFmt where
  | f32 | bf16 | f16
  deriving DecidableEq, Repr

/-- The conversion of FCVT, named destination then source (R312). -/
inductive FcvtForm where
  | i64F32 | f32I64 | i32F32 | f16F32 | f32F16 | bf16F32 | f32Bf16 | e4m3F32
  deriving DecidableEq, Repr

/-- The static format of FACALL and the code of FAFMT (R69, R303). -/
inductive FaFmt where
  | dynamic | bf16 | f16 | e4m3 | e5m2 | e2m1 | o8 | o4 | mxf8 | mxf6 | mxf4 | mxi8 | e2m3 | e3m2
  deriving DecidableEq, Repr

/-- The system registers (R352). -/
inductive SysReg where
  | vyrev | vyfeat | ctxid | gidx | dswid | dsdrop | tsctl | tslate | efr | srkey | srorg | fatab | fampst
  | ptroot | memctl | arosel | arolo | arohi | cseq | ceerr | tvec | svpool | svcur | stkerr
  deriving DecidableEq, Repr

/-- Why a reshard job stops at a block boundary (R245). -/
inductive ReshardStop where
  | preempted | linkLost | pageRefused | protection
  deriving DecidableEq, Repr

/-- The die classes of the thermal limits (R259, R261). -/
inductive DieClass where
  | compute | service | sram | hbm
  deriving DecidableEq, Repr

/-- One temperature sensor at one sample (R259): its reading in thousandths of a degree. -/
structure SensorReading where
  tower : Fin 4
  die : DieClass
  index : Nat
  milliC : Int
  deriving DecidableEq, Repr

/-- The voltage and current sensors of one rail at one sample (R259): the die that the rail supplies, in mV and mA. -/
structure RailReading where
  tower : Fin 4
  die : DieClass
  index : Nat
  milliV : Nat
  milliA : Nat
  deriving DecidableEq, Repr

/-- What Chanter samples each millisecond (R259): the temperature sensors, the rails, the coolant at its inlet. -/
structure Sample where
  temps : List SensorReading
  rails : List RailReading
  coolant : Int
  deriving DecidableEq, Repr

/-- Why the home module or the way to it fails a copy command with a remote end (R205, R233): the link, its page, its bank
that has retired (R26), a fourth mark. -/
inductive CopyFailure where
  | linkLost | pageRefused | protection | retired | chain
  deriving DecidableEq, Repr

/-- What comes from another module for a portion of a copy: bytes, and the poison of the source lines (R172, R204). -/
structure Delivered where
  data : Nat
  poison : Bool
  deriving DecidableEq, Repr

/-- A portion that another module's copy command writes here (R184, R187, R201): the tables installed here for its address
space, its mode, the place, bytes and poison, timestamp, WID, expected read count. -/
structure ForeignWrite where
  root : Word
  user : Bool
  va : Word
  bytes : Nat
  poison : Bool
  pts : Word
  wid : BitVec 16
  readCount : Nat
  deriving DecidableEq, Repr

/-- A line write of a copy command: of this module's, of another module's at a destination here, or another module's read
of a source line here (R184, R187). -/
inductive PortionStep where
  | own (job : Nat)
  | foreignWrite (w : ForeignWrite)
  | foreignRead (root : Word) (user : Bool) (va pts : Word)
  deriving DecidableEq, Repr

/-- An access of the host through CXL.mem (R252). -/
inductive HostMemOp where
  | write (data mask : Nat)
  | read
  deriving DecidableEq, Repr

/-- What a step marker says (R257): the step that begins and the sender's LOGT. -/
structure StepMarker where
  stepNo : Word
  logT : BitVec 5
  deriving DecidableEq, Repr

/-- The capabilities that both ends of a link have (R255). -/
structure LinkCaps where
  align : Bool
  plane : Bool
  deriving DecidableEq, Repr

/-- An image of firmware or of the device identity, with its security version (R263). -/
inductive SignedImage where
  | firmware (version : Nat)
  | identity (version : Nat)
  deriving DecidableEq, Repr

/-- A management command to Chanter (R27, R83): clear a retired-bank entry, or set the module number. -/
inductive MgmtCommand where
  | clearRetired (bank : Nat)
  | setModule (n : BitVec 12)
  deriving DecidableEq, Repr

/-- One constructor for each row of the opcode table. -/
inductive Instr where
  /-- ADD (R280). -/
  | add (d : SReg) (a : SReg) (b : SReg) (g : PReg)
  /-- SUB (R324). -/
  | sub (d : SReg) (a : SReg) (b : SReg) (g : PReg)
  /-- AND (R280). -/
  | and (d : SReg) (a : SReg) (b : SReg) (g : PReg)
  /-- OR (R324). -/
  | or (d : SReg) (a : SReg) (b : SReg) (g : PReg)
  /-- XOR (R379). -/
  | xor (d : SReg) (a : SReg) (b : SReg) (g : PReg)
  /-- SHL (R324). -/
  | shl (d : SReg) (a : SReg) (b : SReg) (g : PReg)
  /-- SHR (R324). -/
  | shr (d : SReg) (a : SReg) (b : SReg) (g : PReg)
  /-- SHRA (R324). -/
  | shra (d : SReg) (a : SReg) (b : SReg) (g : PReg)
  /-- ROT (R324). -/
  | rot (d : SReg) (a : SReg) (b : SReg) (g : PReg)
  /-- MUL (R324). -/
  | mul (d : SReg) (a : SReg) (b : SReg) (g : PReg)
  /-- MULH (R324). -/
  | mulh (d : SReg) (a : SReg) (b : SReg) (g : PReg)
  /-- DIV (R298). -/
  | div (d : SReg) (a : SReg) (b : SReg) (g : PReg)
  /-- REM (R335). -/
  | rem (d : SReg) (a : SReg) (b : SReg) (g : PReg)
  /-- MAX (R324). -/
  | max (d : SReg) (a : SReg) (b : SReg) (g : PReg)
  /-- MIN (R324). -/
  | min (d : SReg) (a : SReg) (b : SReg) (g : PReg)
  /-- SEL (R338). -/
  | sel (d : SReg) (a : SReg) (b : SReg) (p : PReg)
  /-- CLZ (R292). -/
  | clz (d : SReg) (a : SReg) (g : PReg)
  /-- POPC (R331). -/
  | popc (d : SReg) (a : SReg) (g : PReg)
  /-- EXT (R300). -/
  | ext (d : SReg) (a : SReg) (b : SReg) (g : PReg)
  /-- INS (R300). -/
  | ins (d : SReg) (a : SReg) (b : SReg) (g : PReg)
  /-- PLOG (R330). -/
  | plog (d : PReg) (a : PReg) (fn : LogFn) (b : PReg) (g : PReg)
  /-- FADD (R310). -/
  | fadd (d : SReg) (a : SReg) (b : SReg) (g : PReg)
  /-- FMUL (R310). -/
  | fmul (d : SReg) (a : SReg) (b : SReg) (g : PReg)
  /-- FFMA (R310). -/
  | ffma (d : SReg) (a : SReg) (b : SReg) (g : PReg)
  /-- FCMP_EQ (R311). -/
  | fcmpEq (d : PReg) (a : SReg) (b : SReg) (g : PReg)
  /-- FCMP_LT (R311). -/
  | fcmpLt (d : PReg) (a : SReg) (b : SReg) (g : PReg)
  /-- FCMP_LE (R311). -/
  | fcmpLe (d : PReg) (a : SReg) (b : SReg) (g : PReg)
  /-- FCMP_UN (R311). -/
  | fcmpUn (d : PReg) (a : SReg) (b : SReg) (g : PReg)
  /-- FCVT (R312). -/
  | fcvt (d : SReg) (a : SReg) (cv : FcvtForm) (rm : Rounding) (sat : Bool) (g : PReg)
  /-- TSREAD (R359). -/
  | tsread (d : SReg) (g : PReg)
  /-- JR (R317). -/
  | jr (a : SReg) (g : PReg)
  /-- RET (R336). -/
  | ret (g : PReg)
  /-- CMP_EQ (R293). -/
  | cmpEq (d : PReg) (a : SReg) (b : SReg) (g : PReg)
  /-- CMP_NE (R293). -/
  | cmpNe (d : PReg) (a : SReg) (b : SReg) (g : PReg)
  /-- CMP_LT (R293). -/
  | cmpLt (d : PReg) (a : SReg) (b : SReg) (g : PReg)
  /-- CMP_LE (R293). -/
  | cmpLe (d : PReg) (a : SReg) (b : SReg) (g : PReg)
  /-- CMP_LTU (R293). -/
  | cmpLtu (d : PReg) (a : SReg) (b : SReg) (g : PReg)
  /-- CMP_LEU (R293). -/
  | cmpLeu (d : PReg) (a : SReg) (b : SReg) (g : PReg)
  /-- NOP (R327). -/
  | nop (g : PReg)
  /-- HALT (R316). -/
  | halt (g : PReg)
  /-- ERET (R299). -/
  | eret (g : PReg)
  /-- LBRK (R323). -/
  | lbrk (g : PReg)
  /-- ADDI (R281). -/
  | addi (d : SReg) (a : SReg) (imm : Int)
  /-- ANDI (R281). -/
  | andi (d : SReg) (a : SReg) (imm : Int)
  /-- ORI (R328). -/
  | ori (d : SReg) (a : SReg) (imm : Int)
  /-- XORI (R379). -/
  | xori (d : SReg) (a : SReg) (imm : Int)
  /-- LI (R321). -/
  | li (d : SReg) (imm : Int)
  /-- LIH (R321). -/
  | lih (d : SReg) (imm : Int)
  /-- TRAP (R358). -/
  | trap (code : Fin 512)
  /-- CHK (R291). -/
  | chk (a : SReg) (imm : Int)
  /-- SYSR (R353). -/
  | sysr (d : SReg) (r : SysReg)
  /-- SYSW (R353). -/
  | sysw (a : SReg) (r : SysReg)
  /-- LOOP (R322). -/
  | loop (c : SReg) (len : Nat)
  /-- LOOPI (R322). -/
  | loopi (count : Fin 4096) (len : Nat)
  /-- CMPI_EQ (R293). -/
  | cmpiEq (d : PReg) (a : SReg) (imm : Int)
  /-- CMPI_NE (R293). -/
  | cmpiNe (d : PReg) (a : SReg) (imm : Int)
  /-- CMPI_LT (R293). -/
  | cmpiLt (d : PReg) (a : SReg) (imm : Int)
  /-- CMPI_LE (R293). -/
  | cmpiLe (d : PReg) (a : SReg) (imm : Int)
  /-- CMPI_LTU (R293). -/
  | cmpiLtu (d : PReg) (a : SReg) (imm : Int)
  /-- CMPI_LEU (R293). -/
  | cmpiLeu (d : PReg) (a : SReg) (imm : Int)
  /-- BR (R289). -/
  | br (neg : Bool) (p : PReg) (disp : Int)
  /-- J (R317). -/
  | j (disp : Int)
  /-- CALL (R289). -/
  | call (disp : Int)
  /-- VADD (R362). -/
  | vadd (d : VReg) (a : VReg) (b : VReg) (fmt : VFmt) (m : MGuard)
  /-- VSUB (R362). -/
  | vsub (d : VReg) (a : VReg) (b : VReg) (fmt : VFmt) (m : MGuard)
  /-- VMUL (R362). -/
  | vmul (d : VReg) (a : VReg) (b : VReg) (fmt : VFmt) (m : MGuard)
  /-- VFMA (R362). -/
  | vfma (d : VReg) (a : VReg) (b : VReg) (fmt : VFmt) (m : MGuard)
  /-- VMAX (R362). -/
  | vmax (d : VReg) (a : VReg) (b : VReg) (fmt : VFmt) (m : MGuard)
  /-- VMIN (R362). -/
  | vmin (d : VReg) (a : VReg) (b : VReg) (fmt : VFmt) (m : MGuard)
  /-- VABS (R362). -/
  | vabs (d : VReg) (a : VReg) (fmt : VFmt) (m : MGuard)
  /-- VNEG (R362). -/
  | vneg (d : VReg) (a : VReg) (fmt : VFmt) (m : MGuard)
  /-- VAND (R363). -/
  | vand (d : VReg) (a : VReg) (b : VReg) (fmt : VFmt) (m : MGuard)
  /-- VOR (R363). -/
  | vor (d : VReg) (a : VReg) (b : VReg) (fmt : VFmt) (m : MGuard)
  /-- VXOR (R363). -/
  | vxor (d : VReg) (a : VReg) (b : VReg) (fmt : VFmt) (m : MGuard)
  /-- VSHL (R363). -/
  | vshl (d : VReg) (a : VReg) (b : VReg) (fmt : VFmt) (m : MGuard)
  /-- VSHR (R363). -/
  | vshr (d : VReg) (a : VReg) (b : VReg) (fmt : VFmt) (m : MGuard)
  /-- VSEL (R370). -/
  | vsel (d : VReg) (a : VReg) (b : VReg) (fmt : VFmt) (s : MGuard)
  /-- VMOV (R370). -/
  | vmov (d : VReg) (a : VReg) (fmt : VFmt) (m : MGuard)
  /-- VCVT (R367). -/
  | vcvt (d : VReg) (a : VReg) (sat : Bool) (rm : Rounding) (fmt : VFmt) (m : MGuard)
  /-- VCMP_EQ (R365). -/
  | vcmpEq (d : MReg) (a : VReg) (b : VReg) (fmt : VFmt) (m : MGuard)
  /-- VCMP_NE (R365). -/
  | vcmpNe (d : MReg) (a : VReg) (b : VReg) (fmt : VFmt) (m : MGuard)
  /-- VCMP_LT (R365). -/
  | vcmpLt (d : MReg) (a : VReg) (b : VReg) (fmt : VFmt) (m : MGuard)
  /-- VCMP_LE (R365). -/
  | vcmpLe (d : MReg) (a : VReg) (b : VReg) (fmt : VFmt) (m : MGuard)
  /-- VRED (R375). -/
  | vred (d : VReg) (a : VReg) (op : RedOp) (fmt : VFmt) (m : MGuard)
  /-- VREDC (R375). -/
  | vredc (d : VReg) (a : VReg) (op : RedOp) (fmt : VFmt) (m : MGuard)
  /-- VSCAN (R375). -/
  | vscan (d : VReg) (a : VReg) (op : RedOp) (fmt : VFmt) (m : MGuard)
  /-- VTRANS (R378). -/
  | vtrans (d : VReg) (a : VReg) (fmt : VFmt) (m : MGuard)
  /-- VPERM (R372). -/
  | vperm (d : VReg) (a : VReg) (b : VReg) (fmt : VFmt) (m : MGuard)
  /-- VPACK (R371). -/
  | vpack (d : VReg) (a : VReg) (rm : Rounding) (pk : PackFmt) (fmt : VFmt) (m : MGuard)
  /-- VUNPK (R371). -/
  | vunpk (d : VReg) (a : VReg) (rm : Rounding) (pk : PackFmt) (fmt : VFmt) (m : MGuard)
  /-- VEXPD (R366). -/
  | vexpd (d : VReg) (a : VReg) (fmt : VFmt) (m : MGuard)
  /-- VPUSH (R373). -/
  | vpush (fifoB : Bool) (a : VReg) (fmt : VFmt)
  /-- MLOG (R325). -/
  | mlog (d : MReg) (a : MReg) (b : MReg) (fn : LogFn) (m : MGuard)
  /-- VBCAST (R364). -/
  | vbcast (d : VReg) (s : SReg) (m : MGuard)
  /-- VIOTA (R364). -/
  | viota (d : VReg) (s : SReg) (m : MGuard)
  /-- VRNG_CO (R376). -/
  | vrngCo (d : VReg) (s : SReg) (m : MGuard)
  /-- VRNG_LC (R376). -/
  | vrngLc (d : VReg) (s : SReg) (m : MGuard)
  /-- VCOMP (R366). -/
  | vcomp (d : VReg) (a : VReg) (s : SReg) (m : MGuard)
  /-- VSHAPE (R377). -/
  | vshape (s : SReg)
  /-- MPOP (R325). -/
  | mpop (a : MReg) (s : SReg) (m : MGuard)
  /-- SFRCP (R339). -/
  | sfrcp (d : VReg) (a : VReg) (k : Fin 8) (fmt : SfFmt) (m : MGuard)
  /-- SFRSQ (R339). -/
  | sfrsq (d : VReg) (a : VReg) (k : Fin 8) (fmt : SfFmt) (m : MGuard)
  /-- SFEXP (R339). -/
  | sfexp (d : VReg) (a : VReg) (k : Fin 8) (fmt : SfFmt) (m : MGuard)
  /-- SFLOG (R339). -/
  | sflog (d : VReg) (a : VReg) (k : Fin 8) (fmt : SfFmt) (m : MGuard)
  /-- SFTANH (R339). -/
  | sftanh (d : VReg) (a : VReg) (k : Fin 8) (fmt : SfFmt) (m : MGuard)
  /-- SFSIG (R339). -/
  | sfsig (d : VReg) (a : VReg) (k : Fin 8) (fmt : SfFmt) (m : MGuard)
  /-- SFSIN (R339). -/
  | sfsin (d : VReg) (a : VReg) (k : Fin 8) (fmt : SfFmt) (m : MGuard)
  /-- SFCOS (R339). -/
  | sfcos (d : VReg) (a : VReg) (k : Fin 8) (fmt : SfFmt) (m : MGuard)
  /-- LD_I8 (R318). -/
  | ldI8 (d : SReg) (b : SReg) (imm : Int)
  /-- LD_U8 (R318). -/
  | ldU8 (d : SReg) (b : SReg) (imm : Int)
  /-- LD_I16 (R318). -/
  | ldI16 (d : SReg) (b : SReg) (imm : Int)
  /-- LD_I32 (R318). -/
  | ldI32 (d : SReg) (b : SReg) (imm : Int)
  /-- LD_I64 (R318). -/
  | ldI64 (d : SReg) (b : SReg) (imm : Int)
  /-- PREF (R332). -/
  | pref (b : SReg) (imm : Int)
  /-- FLUSH (R314). -/
  | flush (b : SReg) (imm : Int)
  /-- LDS_I8 (R319). -/
  | ldsI8 (d : SReg) (b : SReg) (imm : Int)
  /-- LDS_U8 (R319). -/
  | ldsU8 (d : SReg) (b : SReg) (imm : Int)
  /-- LDS_I16 (R319). -/
  | ldsI16 (d : SReg) (b : SReg) (imm : Int)
  /-- LDS_I32 (R319). -/
  | ldsI32 (d : SReg) (b : SReg) (imm : Int)
  /-- LDS_I64 (R319). -/
  | ldsI64 (d : SReg) (b : SReg) (imm : Int)
  /-- ST_I8 (R350). -/
  | stI8 (d : SReg) (b : SReg) (imm : Int)
  /-- ST_I16 (R350). -/
  | stI16 (d : SReg) (b : SReg) (imm : Int)
  /-- ST_I32 (R350). -/
  | stI32 (d : SReg) (b : SReg) (imm : Int)
  /-- ST_I64 (R350). -/
  | stI64 (d : SReg) (b : SReg) (imm : Int)
  /-- LDV (R320). -/
  | ldv (v : VReg) (b : SReg) (m : MReg) (imm : Int)
  /-- STV (R351). -/
  | stv (v : VReg) (b : SReg) (m : MReg) (imm : Int)
  /-- VGATHER (R368). -/
  | vgather (v : VReg) (b : SReg) (m : MReg) (scaled : Bool) (x : VReg)
  /-- VSCATTER (R369). -/
  | vscatter (v : VReg) (b : SReg) (m : MReg) (scaled : Bool) (x : VReg)
  /-- AMO_ADD_I64 (R283). -/
  | amoAddI64 (d : SReg) (b : SReg) (imm : Int)
  /-- AMO_AND_I64 (R283). -/
  | amoAndI64 (d : SReg) (b : SReg) (imm : Int)
  /-- AMO_OR_I64 (R283). -/
  | amoOrI64 (d : SReg) (b : SReg) (imm : Int)
  /-- AMO_XOR_I64 (R283). -/
  | amoXorI64 (d : SReg) (b : SReg) (imm : Int)
  /-- AMO_MIN_I64 (R283). -/
  | amoMinI64 (d : SReg) (b : SReg) (imm : Int)
  /-- AMO_MAX_I64 (R283). -/
  | amoMaxI64 (d : SReg) (b : SReg) (imm : Int)
  /-- AMO_SWAP_I64 (R283). -/
  | amoSwapI64 (d : SReg) (b : SReg) (imm : Int)
  /-- AMO_CAS_I64 (R283). -/
  | amoCasI64 (d : SReg) (b : SReg) (imm : Int)
  /-- LD_I8_INDEX (R318). -/
  | ldI8Index (d : SReg) (b : SReg) (x : SReg) (p : PReg)
  /-- LD_U8_INDEX (R318). -/
  | ldU8Index (d : SReg) (b : SReg) (x : SReg) (p : PReg)
  /-- LD_I16_INDEX (R318). -/
  | ldI16Index (d : SReg) (b : SReg) (x : SReg) (p : PReg)
  /-- LD_I32_INDEX (R318). -/
  | ldI32Index (d : SReg) (b : SReg) (x : SReg) (p : PReg)
  /-- LD_I64_INDEX (R318). -/
  | ldI64Index (d : SReg) (b : SReg) (x : SReg) (p : PReg)
  /-- PREF_INDEX (R332). -/
  | prefIndex (b : SReg) (x : SReg) (g : PReg)
  /-- LDS_I8_INDEX (R319). -/
  | ldsI8Index (d : SReg) (b : SReg) (x : SReg) (p : PReg)
  /-- LDS_U8_INDEX (R319). -/
  | ldsU8Index (d : SReg) (b : SReg) (x : SReg) (p : PReg)
  /-- LDS_I16_INDEX (R319). -/
  | ldsI16Index (d : SReg) (b : SReg) (x : SReg) (p : PReg)
  /-- LDS_I32_INDEX (R319). -/
  | ldsI32Index (d : SReg) (b : SReg) (x : SReg) (p : PReg)
  /-- LDS_I64_INDEX (R319). -/
  | ldsI64Index (d : SReg) (b : SReg) (x : SReg) (p : PReg)
  /-- ST_I8_INDEX (R350). -/
  | stI8Index (d : SReg) (b : SReg) (x : SReg) (g : PReg)
  /-- ST_I16_INDEX (R350). -/
  | stI16Index (d : SReg) (b : SReg) (x : SReg) (g : PReg)
  /-- ST_I32_INDEX (R350). -/
  | stI32Index (d : SReg) (b : SReg) (x : SReg) (g : PReg)
  /-- ST_I64_INDEX (R350). -/
  | stI64Index (d : SReg) (b : SReg) (x : SReg) (g : PReg)
  /-- AMO_ADD_I32 (R283). -/
  | amoAddI32 (d : SReg) (b : SReg) (imm : Int)
  /-- AMO_AND_I32 (R283). -/
  | amoAndI32 (d : SReg) (b : SReg) (imm : Int)
  /-- AMO_OR_I32 (R283). -/
  | amoOrI32 (d : SReg) (b : SReg) (imm : Int)
  /-- AMO_XOR_I32 (R283). -/
  | amoXorI32 (d : SReg) (b : SReg) (imm : Int)
  /-- AMO_MIN_I32 (R283). -/
  | amoMinI32 (d : SReg) (b : SReg) (imm : Int)
  /-- AMO_MAX_I32 (R283). -/
  | amoMaxI32 (d : SReg) (b : SReg) (imm : Int)
  /-- AMO_SWAP_I32 (R283). -/
  | amoSwapI32 (d : SReg) (b : SReg) (imm : Int)
  /-- AMO_CAS_I32 (R283). -/
  | amoCasI32 (d : SReg) (b : SReg) (imm : Int)
  /-- SLD_I8 (R341). -/
  | sldI8 (d : SReg) (bank : Bank) (off : Nat)
  /-- SLD_U8 (R341). -/
  | sldU8 (d : SReg) (bank : Bank) (off : Nat)
  /-- SLD_I16 (R341). -/
  | sldI16 (d : SReg) (bank : Bank) (off : Nat)
  /-- SLD_I32 (R341). -/
  | sldI32 (d : SReg) (bank : Bank) (off : Nat)
  /-- SLD_I64 (R341). -/
  | sldI64 (d : SReg) (bank : Bank) (off : Nat)
  /-- SST_I8 (R341). -/
  | sstI8 (d : SReg) (bank : Bank) (off : Nat)
  /-- SST_I16 (R341). -/
  | sstI16 (d : SReg) (bank : Bank) (off : Nat)
  /-- SST_I32 (R341). -/
  | sstI32 (d : SReg) (bank : Bank) (off : Nat)
  /-- SST_I64 (R341). -/
  | sstI64 (d : SReg) (bank : Bank) (off : Nat)
  /-- SLDV (R344). -/
  | sldv (v : VReg) (bank : Bank) (off : Nat)
  /-- SSTV (R344). -/
  | sstv (v : VReg) (bank : Bank) (off : Nat)
  /-- SLDT (R343). -/
  | sldt (v : VReg) (bank : Bank) (off : Nat)
  /-- SLDS (R342). -/
  | slds (e : EReg) (bank : Bank) (off : Nat)
  /-- SLD_I8_REGOFF (R341). -/
  | sldI8Regoff (d : SReg) (bank : Bank) (x : SReg) (off : Nat)
  /-- SLD_U8_REGOFF (R341). -/
  | sldU8Regoff (d : SReg) (bank : Bank) (x : SReg) (off : Nat)
  /-- SLD_I16_REGOFF (R341). -/
  | sldI16Regoff (d : SReg) (bank : Bank) (x : SReg) (off : Nat)
  /-- SLD_I32_REGOFF (R341). -/
  | sldI32Regoff (d : SReg) (bank : Bank) (x : SReg) (off : Nat)
  /-- SLD_I64_REGOFF (R341). -/
  | sldI64Regoff (d : SReg) (bank : Bank) (x : SReg) (off : Nat)
  /-- SST_I8_REGOFF (R341). -/
  | sstI8Regoff (d : SReg) (bank : Bank) (x : SReg) (off : Nat)
  /-- SST_I16_REGOFF (R341). -/
  | sstI16Regoff (d : SReg) (bank : Bank) (x : SReg) (off : Nat)
  /-- SST_I32_REGOFF (R341). -/
  | sstI32Regoff (d : SReg) (bank : Bank) (x : SReg) (off : Nat)
  /-- SST_I64_REGOFF (R341). -/
  | sstI64Regoff (d : SReg) (bank : Bank) (x : SReg) (off : Nat)
  /-- SLDV_REGOFF (R344). -/
  | sldvRegoff (v : VReg) (bank : Bank) (x : SReg) (off : Nat)
  /-- SSTV_REGOFF (R344). -/
  | sstvRegoff (v : VReg) (bank : Bank) (x : SReg) (off : Nat)
  /-- SLDT_REGOFF (R343). -/
  | sldtRegoff (v : VReg) (bank : Bank) (x : SReg) (off : Nat)
  /-- SLDS_REGOFF (R342). -/
  | sldsRegoff (e : EReg) (bank : Bank) (x : SReg) (off : Nat)
  /-- CPY (R295). -/
  | cpy (d : SReg) (s : SReg) (g : PReg)
  /-- CEGEO (R290). -/
  | cegeo (a : SReg) (b : SReg) (i : Fin 4) (g : PReg)
  /-- FAPAR (R307). -/
  | fapar (a : SReg) (b : SReg) (n : AReg) (g : PReg)
  /-- FACALL (R301). -/
  | facall (beats : Fin 512) (routine : Fin 256) (fmt : FaFmt)
  /-- FAWAIT (R309). -/
  | fawait (g : PReg)
  /-- FASTAT (R308). -/
  | fastat (d : SReg) (g : PReg)
  /-- FAFMT (R303). -/
  | fafmt (sub : Bool) (fmt : FaFmt) (g : PReg)
  /-- FAMPW (R305). -/
  | fampw (a : SReg) (t : SReg) (g : PReg)
  /-- BINIT (R287). -/
  | binit (t : SReg) (n : SReg) (g : PReg)
  /-- BEXP (R287). -/
  | bexp (t : SReg) (b : SReg) (g : PReg)
  /-- BARV (R287). -/
  | barv (t : SReg) (g : PReg)
  /-- BTEST (R287). -/
  | btest (d : SReg) (t : SReg) (g : PReg)
  /-- BWAIT (R288). -/
  | bwait (t : SReg) (q : Bool) (g : PReg)
  /-- BANKGIVE (R285). -/
  | bankgive (t : SReg) (m : SReg) (c : Fin 16) (g : PReg)
  /-- SPAWN (R349). -/
  | spawn (t : SReg) (e : SReg) (blk : Fin 8) (g : PReg)
  /-- SPAWN_JOIN (R349). -/
  | spawnJoin (t : SReg) (g : PReg)
  /-- TASK (R354). -/
  | task (r : SReg) (q : SReg) (g : PReg)
  /-- TDEP (R356). -/
  | tdep (h : SReg) (n : Fin 64) (g : PReg)
  /-- GANG (R315). -/
  | gang (n : SReg)
  /-- GEND (R315). -/
  | gend
  /-- TSWAIT (R360). -/
  | tswait (s : SReg) (g : PReg)
  /-- SMAP (R345). -/
  | smap (v : SReg) (w : SReg) (g : PReg)
  /-- SUNMAP (R346). -/
  | sunmap (t : SReg) (v : SReg) (g : PReg)
  /-- SWB (R346). -/
  | swb (t : SReg) (v : SReg) (g : PReg)
  /-- PREQ (R333). -/
  | preq (a : SReg) (t : SReg) (g : PReg)
  /-- RELOC (R334). -/
  | reloc (d : SReg) (s : SReg) (g : PReg)
  /-- MSWEEP (R326). -/
  | msweep (b : SReg) (len : SReg) (g : PReg)
  /-- RSGO (R337). -/
  | rsgo (a : SReg) (c : SReg) (g : PReg)
  /-- RSPROG (R337). -/
  | rsprog (d : SReg) (a : SReg) (g : PReg)
  /-- COLL (R294). -/
  | coll (a : SReg) (c : SReg) (g : PReg)
  /-- PCNT (R329). -/
  | pcnt (d : SReg) (t : SReg) (g : PReg)
  /-- PWAIT (R329). -/
  | pwait (t : SReg) (k : Fin 64) (g : PReg)
  /-- PCANCEL (R329). -/
  | pcancel (t : SReg) (n : SReg) (g : PReg)
  /-- FENCE_ENG (R313). -/
  | fenceEng (g : PReg)
  /-- FENCE_SYS (R313). -/
  | fenceSys (g : PReg)
  /-- TLBINV_ALL (R357). -/
  | tlbinvAll (g : PReg)
  /-- TLBINV_VA (R357). -/
  | tlbinvVa (a : SReg) (len : SReg) (g : PReg)
  /-- TLBINV_AS (R357). -/
  | tlbinvAs (a : SReg) (g : PReg)
  /-- HTS_DOORBELL_SUBMIT (R192). -/
  | htsDoorbellSubmit (q : Fin 64) (bytes : Nat) (aligned : Bool) (first count : Byte)
  /-- QUEUE_CONTROL_WRITE (R191). -/
  | queueControlWrite (q : Fin 64) (data : Word)
  /-- PREEMPT_REQUEST_WRITE (R218). -/
  | preemptRequestWrite (data : Word)
  /-- CHOTIS_RETRAIN_WRITE (R256). -/
  | chotisRetrainWrite (link : Fin 12) (data : Word)
  /-- REGISTER_WRITE (R7). -/
  | registerWrite (offset bytes data : Nat)
  /-- STKERR_CLEAR (R25). -/
  | stkerrClear
  /-- CEERR_CLEAR (R205). -/
  | ceerrClear
  /-- EFR_WRITE (R112). -/
  | efrWrite (x : Word)
  /-- TSCTL_WRITE (R101). -/
  | tsctlWrite (x : Word)
  /-- OWNERSHIP_TABLE_WRITE (R168). -/
  | ownershipTableWrite (hi : Bool) (x : Word)
  /-- TSLATE_READ_CLEAR (R83). -/
  | tslateReadClear (d : SReg)
  /-- DSDROP_READ_CLEAR (R181). -/
  | dsdropReadClear (d : SReg)
  /-- LINK_STATUS_READ (R255). -/
  | linkStatusRead (link : Fin 12)
  /-- TASK_DISPATCH (R197). -/
  | taskDispatch
  /-- EFFECTIVE_LEVEL_AGING (R198). -/
  | effectiveLevelAging (saved : Bool) (who : Nat)
  /-- TASK_RECORD_SUBMIT (R354). -/
  | taskRecordSubmit (job : Nat)
  /-- TDEP_DECREMENT (R356). -/
  | tdepDecrement (job : Nat)
  /-- PREEMPTION (R219). -/
  | preemption (loc : Fin 1024)
  /-- COPY_QUIESCE_WINDOW_EXPIRY (R220). -/
  | copyQuiesceWindowExpiry (loc : Fin 1024)
  /-- SAVED_INSTANCE_RESUME (R221). -/
  | savedInstanceResume (work : Nat)
  /-- FA_CALL_REISSUE (R148). -/
  | faCallReissue (loc : Fin 1024)
  /-- ENGINE_WAIT_END (R381). -/
  | engineWaitEnd (loc : Fin 1024)
  /-- M0_LOAD_RETURN (R175). -/
  | m0LoadReturn (n : Nat)
  /-- SPAWNED_CONTEXT_READY (R91). -/
  | spawnedContextReady (loc : Fin 1024)
  /-- TIME_STEP_BOUNDARY (R99). -/
  | timeStepBoundary
  /-- STEP_MARKER_RECEIVE (R257). -/
  | stepMarkerReceive (link : Fin 12) (marker : StepMarker) (crcOk : Bool)
  /-- PTS_TICK (R176). -/
  | ptsTick
  /-- L1_COPY_AGE_EXPIRY (R176). -/
  | l1CopyAgeExpiry
  /-- HOME_TICK (R159). -/
  | homeTick
  /-- CELL_ERROR_WRITE_BACK (R23). -/
  | cellErrorWriteBack (line : Nat)
  /-- SCRUB_LINE (R23). -/
  | scrubLine (line : Nat)
  /-- PAGE_REQUEST_OUTCOME (R167). -/
  | pageRequestOutcome (n : Nat) (resident : Bool) (entryAt : Nat) (entry : Word)
  /-- PAGE_RELEASE_REQUEST (R170). -/
  | pageReleaseRequest (base size : Nat)
  /-- HOST_SNOOP_WRITE (R185). -/
  | hostSnoopWrite (line data mask : Nat)
  /-- HOST_CXL_MEM_WRITE (R252); `keeps` says that the host may cache the line after it. -/
  | hostCxlMemWrite (line : Nat) (op : HostMemOp) (keeps : Bool)
  /-- COPY_START (R204). -/
  | copyStart (job : Nat)
  /-- COPY_LINE_WRITE (R205), with the data that come from another module. -/
  | copyLineWrite (step : PortionStep) (data : Delivered)
  /-- COPY_COMPLETE (R205). -/
  | copyComplete (job : Nat) (fail : Option CopyFailure)
  /-- FA_ROUTINE_START (R137). -/
  | faRoutineStart (core : Fin 256)
  /-- FA_MULTICAST_START (R141). -/
  | faMulticastStart (core : Fin 256)
  /-- FA_ROUTINE_COMPLETE (R137). -/
  | faRoutineComplete (core : Fin 256)
  /-- RELOC_LINE_MOVE (R233). -/
  | relocLineMove (job : Nat)
  /-- MSWEEP_LINE (R236). -/
  | msweepLine (job : Nat)
  /-- RESHARD_BLOCK (R244). -/
  | reshardBlock (job : Nat) (remote : List Byte)
  /-- RESHARD_STOP (R245). -/
  | reshardStop (job : Nat) (why : ReshardStop)
  /-- MAP_UNIT_ACCEPT (R346). -/
  | mapUnitAccept (job : Nat)
  /-- MICROPROGRAM_VERIFY (R305): whether each of the two signatures verifies (R263). -/
  | microprogramVerify (job : Nat) (ecdsaOk lmsOk : Bool)
  /-- COLL_JOB_START (R267). -/
  | collJobStart (job : Nat)
  /-- EXPONENT_HEADER_RECEIVE (R268). -/
  | exponentHeaderReceive (cid tile from_ : Nat) (e : Int) (special whole : Bool) (digest : Nat)
  /-- PLANE_PACKET_RECEIVE (R269). -/
  | planePacketReceive (cid tile plane from_ bits : Nat) (crcOk : Bool)
  /-- WHOLE_VALUE_TILE_RECEIVE (R273). -/
  | wholeValueTileReceive (cid tile from_ : Nat) (values : List (BitVec 32))
  /-- PLANE_CANCEL_RECEIVE (R271). -/
  | planeCancelReceive (cid tile consumer : Nat)
  /-- COLL_COMPLETE (R274). -/
  | collComplete (job : Nat)
  /-- FLIT_RECEIVE (R254): a flit of 256 bytes; `replay` says that the sender replays the flit that was asked for. -/
  | flitReceive (link : Fin 12) (flit : BitVec 2048) (replay : Bool)
  /-- LINK_TRAINING_COMPLETE (R255): `trips` are the round trips measured, in ns (R257). -/
  | linkTrainingComplete (link : Fin 12) (ok : Bool) (version : Byte) (caps : LinkCaps) (partner : BitVec 12)
    (trips : List Nat)
  /-- SENSOR_SAMPLE (R259). -/
  | sensorSample (sample : Sample)
  /-- MANAGEMENT_SERVICE_COMMAND (R27). -/
  | managementServiceCommand (cmd : MgmtCommand)
  /-- FIRMWARE_UPDATE (R263). -/
  | firmwareUpdate (signaturesOk : Bool) (image : SignedImage)
  /-- ATTESTATION_REQUEST (R264). -/
  | attestationRequest
  /-- DEVICE_RESET (R27). -/
  | deviceReset
  /-- POWER_ON (R263): the HDM granules are chosen (R252). -/
  | powerOn (hdm : BitVec 384)
  /-- MAP_UNIT_LINE_TRANSFER (R346). -/
  | mapUnitLineTransfer (job : Nat)
  deriving DecidableEq, Repr

end Sys2Proof
end

