-- ==== Sys2Proof/WellFormed.lean ====
section
/-! DEFINITION. Which instructions have an encoding: every immediate fits its field with two extension
syllables (R37, R49), and no field holds a value the manual reserves (R52 sub-code 0x09). An event has no
encoding and carries no check. -/

namespace Sys2Proof

/-- A signed immediate that a field of width `n` with two X syllables holds (R37). -/
def fitsS (n : Nat) (v : Int) : Bool := decide (-(2 ^ (n + 55)) ≤ v) && decide (v < 2 ^ (n + 55))
/-- The same for an unsigned field. -/
def fitsU (n v : Nat) : Bool := decide (v < 2 ^ (n + 56))

/-- Whether an instruction is a syllable, and not an event of the device. -/
def Instr.isSyllable : Instr → Bool
  | .htsDoorbellSubmit _ _ _ _ _ => false
  | .queueControlWrite _ _ => false
  | .preemptRequestWrite _ => false
  | .chotisRetrainWrite _ _ => false
  | .registerWrite _ _ _ => false
  | .stkerrClear => false
  | .ceerrClear => false
  | .efrWrite _ => false
  | .tsctlWrite _ => false
  | .ownershipTableWrite _ _ => false
  | .tslateReadClear _ => false
  | .dsdropReadClear _ => false
  | .linkStatusRead _ => false
  | .taskDispatch => false
  | .effectiveLevelAging _ _ => false
  | .taskRecordSubmit _ => false
  | .tdepDecrement _ => false
  | .preemption _ => false
  | .copyQuiesceWindowExpiry _ => false
  | .savedInstanceResume _ => false
  | .faCallReissue _ => false
  | .engineWaitEnd _ => false
  | .m0LoadReturn _ => false
  | .spawnedContextReady _ => false
  | .timeStepBoundary => false
  | .stepMarkerReceive _ _ _ => false
  | .ptsTick => false
  | .l1CopyAgeExpiry => false
  | .homeTick => false
  | .cellErrorWriteBack _ => false
  | .scrubLine _ => false
  | .pageRequestOutcome _ _ _ _ => false
  | .pageReleaseRequest _ _ => false
  | .hostSnoopWrite _ _ _ => false
  | .hostCxlMemWrite _ _ _ => false
  | .copyStart _ => false
  | .copyLineWrite _ _ => false
  | .copyComplete _ _ => false
  | .faRoutineStart _ => false
  | .faMulticastStart _ => false
  | .faRoutineComplete _ => false
  | .relocLineMove _ => false
  | .msweepLine _ => false
  | .reshardBlock _ _ => false
  | .reshardStop _ _ => false
  | .mapUnitAccept _ => false
  | .microprogramVerify _ _ _ => false
  | .collJobStart _ => false
  | .exponentHeaderReceive _ _ _ _ _ _ _ => false
  | .planePacketReceive _ _ _ _ _ _ => false
  | .wholeValueTileReceive _ _ _ _ => false
  | .planeCancelReceive _ _ _ => false
  | .collComplete _ => false
  | .flitReceive _ _ _ => false
  | .linkTrainingComplete _ _ _ _ _ _ => false
  | .sensorSample _ => false
  | .managementServiceCommand _ => false
  | .firmwareUpdate _ _ => false
  | .attestationRequest => false
  | .deviceReset => false
  | .powerOn _ => false
  | .mapUnitLineTransfer _ => false
  | _ => true

/-- The fields of a syllable hold values its encoding admits. -/
def Instr.wellFormed : Instr → Bool
  | .fcvt _ _ cv rm sat _ => (match cv with
      | .f16F32 | .bf16F32 | .e4m3F32 => true
      | .i64F32 | .f32I64 | .i32F32 => !sat
      | .f32F16 | .f32Bf16 => !sat && rm == .rne)
  | .addi _ _ imm => fitsS 9 imm
  | .andi _ _ imm => fitsS 9 imm
  | .ori _ _ imm => fitsS 9 imm
  | .xori _ _ imm => fitsS 9 imm
  | .li _ imm => fitsS 9 imm
  | .lih _ imm => fitsS 9 imm
  | .chk _ imm => fitsS 9 imm
  | .loop _ len => fitsU 9 len && decide (len ≠ 0)
  | .loopi _ len => fitsU 9 len && decide (len ≠ 0)
  | .cmpiEq _ _ imm => fitsS 9 imm
  | .cmpiNe _ _ imm => fitsS 9 imm
  | .cmpiLt _ _ imm => fitsS 9 imm
  | .cmpiLe _ _ imm => fitsS 9 imm
  | .cmpiLtu _ _ imm => fitsS 9 imm
  | .cmpiLeu _ _ imm => fitsS 9 imm
  | .br _ _ disp => fitsS 17 disp
  | .j disp => fitsS 17 disp
  | .call disp => fitsS 17 disp
  | .vrngCo _ s _ => decide (s.val ≠ 63)
  | .ldI8 _ _ imm => fitsS 9 imm
  | .ldU8 _ _ imm => fitsS 9 imm
  | .ldI16 _ _ imm => fitsS 9 imm
  | .ldI32 _ _ imm => fitsS 9 imm
  | .ldI64 _ _ imm => fitsS 9 imm
  | .pref _ imm => fitsS 9 imm
  | .flush _ imm => fitsS 9 imm
  | .ldsI8 _ _ imm => fitsS 9 imm
  | .ldsU8 _ _ imm => fitsS 9 imm
  | .ldsI16 _ _ imm => fitsS 9 imm
  | .ldsI32 _ _ imm => fitsS 9 imm
  | .ldsI64 _ _ imm => fitsS 9 imm
  | .stI8 _ _ imm => fitsS 9 imm
  | .stI16 _ _ imm => fitsS 9 imm
  | .stI32 _ _ imm => fitsS 9 imm
  | .stI64 _ _ imm => fitsS 9 imm
  | .ldv _ _ _ imm => fitsS 6 imm
  | .stv _ _ _ imm => fitsS 6 imm
  | .amoAddI64 _ _ imm => fitsS 9 imm
  | .amoAndI64 _ _ imm => fitsS 9 imm
  | .amoOrI64 _ _ imm => fitsS 9 imm
  | .amoXorI64 _ _ imm => fitsS 9 imm
  | .amoMinI64 _ _ imm => fitsS 9 imm
  | .amoMaxI64 _ _ imm => fitsS 9 imm
  | .amoSwapI64 _ _ imm => fitsS 9 imm
  | .amoCasI64 d _ imm => fitsS 9 imm && decide (d.val ≠ 63)
  | .amoAddI32 _ _ imm => fitsS 9 imm
  | .amoAndI32 _ _ imm => fitsS 9 imm
  | .amoOrI32 _ _ imm => fitsS 9 imm
  | .amoXorI32 _ _ imm => fitsS 9 imm
  | .amoMinI32 _ _ imm => fitsS 9 imm
  | .amoMaxI32 _ _ imm => fitsS 9 imm
  | .amoSwapI32 _ _ imm => fitsS 9 imm
  | .amoCasI32 d _ imm => fitsS 9 imm && decide (d.val ≠ 63)
  | .sldI8 _ _ off => fitsU 9 off
  | .sldU8 _ _ off => fitsU 9 off
  | .sldI16 _ _ off => fitsU 9 off
  | .sldI32 _ _ off => fitsU 9 off
  | .sldI64 _ _ off => fitsU 9 off
  | .sstI8 _ _ off => fitsU 9 off
  | .sstI16 _ _ off => fitsU 9 off
  | .sstI32 _ _ off => fitsU 9 off
  | .sstI64 _ _ off => fitsU 9 off
  | .sldv _ _ off => fitsU 9 off
  | .sstv _ _ off => fitsU 9 off
  | .sldt _ _ off => fitsU 9 off
  | .slds _ _ off => fitsU 9 off
  | .sldI8Regoff _ _ _ off => fitsU 3 off
  | .sldU8Regoff _ _ _ off => fitsU 3 off
  | .sldI16Regoff _ _ _ off => fitsU 3 off
  | .sldI32Regoff _ _ _ off => fitsU 3 off
  | .sldI64Regoff _ _ _ off => fitsU 3 off
  | .sstI8Regoff _ _ _ off => fitsU 3 off
  | .sstI16Regoff _ _ _ off => fitsU 3 off
  | .sstI32Regoff _ _ _ off => fitsU 3 off
  | .sstI64Regoff _ _ _ off => fitsU 3 off
  | .sldvRegoff _ _ _ off => fitsU 3 off
  | .sstvRegoff _ _ _ off => fitsU 3 off
  | .sldtRegoff _ _ _ off => fitsU 3 off
  | .sldsRegoff _ _ _ off => fitsU 3 off
  | _ => true

end Sys2Proof
end

