-- ==== Sys2Proof/Decode.lean ====
section
/-! DEFINITION. Decoding and encoding (R47 to R70): field codes, one syllable with its extension syllables,
one bundle with the sub-code checks of R52 that need no state, and the encoder. A word is the number of its
bits; both directions are div and mod by powers of two. -/

namespace Sys2Proof

/-! Codes of the field values. -/

/-- R60. -/
def VFmt.code : VFmt → Nat
  | .f32 => 0 | .bf16 => 1 | .f16 => 2 | .e4m3 => 3 | .e5m2 => 4 | .i32 => 5 | .i16 => 6 | .i8 => 7
def VFmt.ofCode : Nat → Option VFmt
  | 0 => some .f32 | 1 => some .bf16 | 2 => some .f16 | 3 => some .e4m3 | 4 => some .e5m2 | 5 => some .i32
  | 6 => some .i16 | 7 => some .i8 | _ => none
/-- R325. -/
def LogFn.code : LogFn → Nat
  | .and => 0 | .or => 1 | .xor => 2 | .andn => 3 | .orn => 4 | .nand => 5 | .nor => 6 | .xnor => 7
def LogFn.ofCode : Nat → Option LogFn
  | 0 => some .and | 1 => some .or | 2 => some .xor | 3 => some .andn | 4 => some .orn | 5 => some .nand
  | 6 => some .nor | 7 => some .xnor | _ => none
/-- R312, R367: 0b11 is reserved. -/
def Rounding.code : Rounding → Nat
  | .rne => 0 | .rz => 1 | .rs => 2
def Rounding.ofCode : Nat → Option Rounding
  | 0 => some .rne | 1 => some .rz | 2 => some .rs | _ => none
/-- R375. -/
def RedOp.code : RedOp → Nat
  | .add => 0 | .max => 1 | .min => 2
def RedOp.ofCode : Nat → Option RedOp
  | 0 => some .add | 1 => some .max | 2 => some .min | _ => none
/-- R371. -/
def PackFmt.code : PackFmt → Nat
  | .e2m1 => 0 | .e2m3 => 1 | .e3m2 => 2 | .o4 => 3 | .o8 => 4
def PackFmt.ofCode : Nat → Option PackFmt
  | 0 => some .e2m1 | 1 => some .e2m3 | 2 => some .e3m2 | 3 => some .o4 | 4 => some .o8 | _ => none
/-- R62. -/
def SfFmt.code : SfFmt → Nat
  | .f32 => 0 | .bf16 => 1 | .f16 => 2
def SfFmt.ofCode : Nat → Option SfFmt
  | 0 => some .f32 | 1 => some .bf16 | 2 => some .f16 | _ => none
/-- R312. -/
def FcvtForm.code : FcvtForm → Nat
  | .i64F32 => 0 | .f32I64 => 1 | .i32F32 => 2 | .f16F32 => 3 | .f32F16 => 4 | .bf16F32 => 5 | .f32Bf16 => 6
  | .e4m3F32 => 7
def FcvtForm.ofCode : Nat → Option FcvtForm
  | 0 => some .i64F32 | 1 => some .f32I64 | 2 => some .i32F32 | 3 => some .f16F32 | 4 => some .f32F16
  | 5 => some .bf16F32 | 6 => some .f32Bf16 | 7 => some .e4m3F32 | _ => none
/-- The saturation bit is Z for this conversion (R312). -/
def FcvtForm.satZ : FcvtForm → Bool
  | .f16F32 | .bf16F32 | .e4m3F32 => false
  | .i64F32 | .f32I64 | .i32F32 | .f32F16 | .f32Bf16 => true
/-- The rounding bits are Z for this conversion (R312). -/
def FcvtForm.roundZ : FcvtForm → Bool
  | .f32F16 | .f32Bf16 => true
  | .i64F32 | .f32I64 | .i32F32 | .f16F32 | .bf16F32 | .e4m3F32 => false
/-- R69. -/
def FaFmt.code : FaFmt → Nat
  | .dynamic => 0 | .bf16 => 1 | .f16 => 2 | .e4m3 => 3 | .e5m2 => 4 | .e2m1 => 5 | .o8 => 6 | .o4 => 7
  | .mxf8 => 8 | .mxf6 => 9 | .mxf4 => 10 | .mxi8 => 11 | .e2m3 => 12 | .e3m2 => 13
def FaFmt.ofCode : Nat → Option FaFmt
  | 0 => some .dynamic | 1 => some .bf16 | 2 => some .f16 | 3 => some .e4m3 | 4 => some .e5m2 | 5 => some .e2m1
  | 6 => some .o8 | 7 => some .o4 | 8 => some .mxf8 | 9 => some .mxf6 | 10 => some .mxf4 | 11 => some .mxi8
  | 12 => some .e2m3 | 13 => some .e3m2 | _ => none
/-- Register numbers of R352. -/
def SysReg.number : SysReg → Nat
  | .vyrev => 0x000 | .vyfeat => 0x001 | .ctxid => 0x010 | .gidx => 0x011 | .dswid => 0x013 | .dsdrop => 0x014
  | .tsctl => 0x020 | .tslate => 0x021 | .efr => 0x030 | .srkey => 0x031 | .srorg => 0x032 | .fatab => 0x040
  | .fampst => 0x041 | .ptroot => 0x060 | .memctl => 0x061 | .arosel => 0x062 | .arolo => 0x063
  | .arohi => 0x064 | .cseq => 0x070 | .ceerr => 0x071 | .tvec => 0x080 | .svpool => 0x081 | .svcur => 0x082
  | .stkerr => 0x090
def SysReg.ofNumber : Nat → Option SysReg
  | 0x000 => some .vyrev | 0x001 => some .vyfeat | 0x010 => some .ctxid | 0x011 => some .gidx
  | 0x013 => some .dswid | 0x014 => some .dsdrop | 0x020 => some .tsctl | 0x021 => some .tslate
  | 0x030 => some .efr | 0x031 => some .srkey | 0x032 => some .srorg | 0x040 => some .fatab
  | 0x041 => some .fampst | 0x060 => some .ptroot | 0x061 => some .memctl | 0x062 => some .arosel
  | 0x063 => some .arolo | 0x064 => some .arohi | 0x070 => some .cseq | 0x071 => some .ceerr
  | 0x080 => some .tvec | 0x081 => some .svpool | 0x082 => some .svcur | 0x090 => some .stkerr
  | _ => none

/-! Fields of a word. -/

/-- The register or number field of `n` values at bit `lo`. -/
def fld (w lo n : Nat) [NeZero n] : Fin n := Fin.ofNat n (w / 2 ^ lo)
/-- Bit `i` of a word. -/
def bitAt (w i : Nat) : Bool := decide (w / 2 ^ i % 2 = 1)
/-- The unsigned value of a field of width `n` at bit 0 with the payloads of its extension syllables (R49). -/
def uimm (w n : Nat) : List Nat → Nat
  | [] => w % 2 ^ n
  | [x] => w % 2 ^ n + x * 2 ^ n
  | x :: y :: _ => w % 2 ^ n + x * 2 ^ n + y * 2 ^ (n + 28)
/-- The signed value of such a field, from the top bit of its combined width (R49). -/
def simm (w n : Nat) (xs : List Nat) : Int :=
  let u := uimm w n xs
  let width := n + 28 * min xs.length 2
  if u < 2 ^ (width - 1) then (u : Int) else (u : Int) - 2 ^ width

/-- What one syllable and its extension syllables decode to: an instruction, or the reason of R52. -/
inductive SylResult where
  | ok (i : Instr)
  /-- An X syllable after a form that has no extendable field: sub-code 0x04. -/
  | misplacedX
  /-- Sub-code 0x08. -/
  | unassigned
  /-- A Z bit set or a reserved field value: sub-code 0x09. -/
  | reserved
  deriving DecidableEq, Repr

/-- Whether every field of a list of (bit, width) is zero (R53). -/
def zeroFields (w : Nat) (zs : List (Nat × Nat)) : Bool := zs.all fun z => w / 2 ^ z.1 % 2 ^ z.2 == 0

/-- A form without an extendable field. -/
def plain (w : Nat) (xs : List Nat) (zs : List (Nat × Nat)) (i : Option Instr) : SylResult :=
  if xs ≠ [] then .misplacedX
  else if zeroFields w zs then (match i with | some i => .ok i | none => .reserved) else .reserved

/-- A form whose immediate may be extended (R49, R56, R63, R66). -/
def ext (w : Nat) (_xs : List Nat) (zs : List (Nat × Nat)) (i : Option Instr) : SylResult :=
  if zeroFields w zs then (match i with | some i => .ok i | none => .reserved) else .reserved

/-- The scalar opcode map (R57, R58). -/
def decodeScalar (w : Nat) (xs : List Nat) : SylResult :=
  match w / 2 ^ 21 % 128 with
  | 0x0 => plain w xs [] (some (.add (fld w 15 64) (fld w 9 64) (fld w 3 64) (fld w 0 8)))
  | 0x1 => plain w xs [] (some (.sub (fld w 15 64) (fld w 9 64) (fld w 3 64) (fld w 0 8)))
  | 0x2 => plain w xs [] (some (.and (fld w 15 64) (fld w 9 64) (fld w 3 64) (fld w 0 8)))
  | 0x3 => plain w xs [] (some (.or (fld w 15 64) (fld w 9 64) (fld w 3 64) (fld w 0 8)))
  | 0x4 => plain w xs [] (some (.xor (fld w 15 64) (fld w 9 64) (fld w 3 64) (fld w 0 8)))
  | 0x5 => plain w xs [] (some (.shl (fld w 15 64) (fld w 9 64) (fld w 3 64) (fld w 0 8)))
  | 0x6 => plain w xs [] (some (.shr (fld w 15 64) (fld w 9 64) (fld w 3 64) (fld w 0 8)))
  | 0x7 => plain w xs [] (some (.shra (fld w 15 64) (fld w 9 64) (fld w 3 64) (fld w 0 8)))
  | 0x8 => plain w xs [] (some (.rot (fld w 15 64) (fld w 9 64) (fld w 3 64) (fld w 0 8)))
  | 0x9 => plain w xs [] (some (.mul (fld w 15 64) (fld w 9 64) (fld w 3 64) (fld w 0 8)))
  | 0xa => plain w xs [] (some (.mulh (fld w 15 64) (fld w 9 64) (fld w 3 64) (fld w 0 8)))
  | 0xb => plain w xs [] (some (.div (fld w 15 64) (fld w 9 64) (fld w 3 64) (fld w 0 8)))
  | 0xc => plain w xs [] (some (.rem (fld w 15 64) (fld w 9 64) (fld w 3 64) (fld w 0 8)))
  | 0xd => plain w xs [] (some (.max (fld w 15 64) (fld w 9 64) (fld w 3 64) (fld w 0 8)))
  | 0xe => plain w xs [] (some (.min (fld w 15 64) (fld w 9 64) (fld w 3 64) (fld w 0 8)))
  | 0xf => plain w xs [] (some (.sel (fld w 15 64) (fld w 9 64) (fld w 3 64) (fld w 0 8)))
  | 0x10 => plain w xs [(3, 6)] (some (.clz (fld w 15 64) (fld w 9 64) (fld w 0 8)))
  | 0x11 => plain w xs [(3, 6)] (some (.popc (fld w 15 64) (fld w 9 64) (fld w 0 8)))
  | 0x12 => plain w xs [] (some (.ext (fld w 15 64) (fld w 9 64) (fld w 3 64) (fld w 0 8)))
  | 0x13 => plain w xs [] (some (.ins (fld w 15 64) (fld w 9 64) (fld w 3 64) (fld w 0 8)))
  | 0x14 => plain w xs [(12, 3), (18, 3)] ((LogFn.ofCode (w / 2 ^ 6 % 8)).bind fun fn => some (.plog (fld w 15 8) (fld w 9 8) fn (fld w 3 8) (fld w 0 8)))
  | 0x15 => plain w xs [] (some (.fadd (fld w 15 64) (fld w 9 64) (fld w 3 64) (fld w 0 8)))
  | 0x16 => plain w xs [] (some (.fmul (fld w 15 64) (fld w 9 64) (fld w 3 64) (fld w 0 8)))
  | 0x17 => plain w xs [] (some (.ffma (fld w 15 64) (fld w 9 64) (fld w 3 64) (fld w 0 8)))
  | 0x18 => plain w xs [(18, 3)] (some (.fcmpEq (fld w 15 8) (fld w 9 64) (fld w 3 64) (fld w 0 8)))
  | 0x19 => plain w xs [(18, 3)] (some (.fcmpLt (fld w 15 8) (fld w 9 64) (fld w 3 64) (fld w 0 8)))
  | 0x1a => plain w xs [(18, 3)] (some (.fcmpLe (fld w 15 8) (fld w 9 64) (fld w 3 64) (fld w 0 8)))
  | 0x1b => plain w xs [(18, 3)] (some (.fcmpUn (fld w 15 8) (fld w 9 64) (fld w 3 64) (fld w 0 8)))
  | 0x1c => plain w xs [] ((FcvtForm.ofCode (w / 2 ^ 6 % 8)).bind fun cv => (Rounding.ofCode (w / 2 ^ 4 % 4)).bind fun rm => if (cv.satZ && bitAt w 3) || (cv.roundZ && decide (w / 2 ^ 4 % 4 ≠ 0)) then none else some (.fcvt (fld w 15 64) (fld w 9 64) cv rm (bitAt w 3) (fld w 0 8)))
  | 0x1d => plain w xs [(3, 12)] (some (.tsread (fld w 15 64) (fld w 0 8)))
  | 0x1e => plain w xs [(3, 6), (15, 6)] (some (.jr (fld w 9 64) (fld w 0 8)))
  | 0x1f => plain w xs [(3, 18)] (some (.ret (fld w 0 8)))
  | 0x20 => plain w xs [(18, 3)] (some (.cmpEq (fld w 15 8) (fld w 9 64) (fld w 3 64) (fld w 0 8)))
  | 0x21 => plain w xs [(18, 3)] (some (.cmpNe (fld w 15 8) (fld w 9 64) (fld w 3 64) (fld w 0 8)))
  | 0x22 => plain w xs [(18, 3)] (some (.cmpLt (fld w 15 8) (fld w 9 64) (fld w 3 64) (fld w 0 8)))
  | 0x23 => plain w xs [(18, 3)] (some (.cmpLe (fld w 15 8) (fld w 9 64) (fld w 3 64) (fld w 0 8)))
  | 0x24 => plain w xs [(18, 3)] (some (.cmpLtu (fld w 15 8) (fld w 9 64) (fld w 3 64) (fld w 0 8)))
  | 0x25 => plain w xs [(18, 3)] (some (.cmpLeu (fld w 15 8) (fld w 9 64) (fld w 3 64) (fld w 0 8)))
  | 0x28 => plain w xs [(3, 18)] (some (.nop (fld w 0 8)))
  | 0x29 => plain w xs [(3, 18)] (some (.halt (fld w 0 8)))
  | 0x2a => plain w xs [(3, 18)] (some (.eret (fld w 0 8)))
  | 0x2b => plain w xs [(3, 18)] (some (.lbrk (fld w 0 8)))
  | 0x40 => ext w xs [] (some (.addi (fld w 15 64) (fld w 9 64) (simm w 9 xs)))
  | 0x41 => ext w xs [] (some (.andi (fld w 15 64) (fld w 9 64) (simm w 9 xs)))
  | 0x42 => ext w xs [] (some (.ori (fld w 15 64) (fld w 9 64) (simm w 9 xs)))
  | 0x43 => ext w xs [] (some (.xori (fld w 15 64) (fld w 9 64) (simm w 9 xs)))
  | 0x44 => ext w xs [(9, 6)] (some (.li (fld w 15 64) (simm w 9 xs)))
  | 0x45 => ext w xs [(9, 6)] (some (.lih (fld w 15 64) (simm w 9 xs)))
  | 0x46 => plain w xs [(9, 12)] (some (.trap (fld w 0 512)))
  | 0x47 => ext w xs [(15, 6)] (some (.chk (fld w 9 64) (simm w 9 xs)))
  | 0x48 => ext w xs [(9, 6)] ((SysReg.ofNumber (uimm w 9 xs)).bind fun r => some (.sysr (fld w 15 64) r))
  | 0x49 => ext w xs [(15, 6)] ((SysReg.ofNumber (uimm w 9 xs)).bind fun r => some (.sysw (fld w 9 64) r))
  | 0x4a => ext w xs [(15, 6)] (some (.loop (fld w 9 64) (uimm w 9 xs)))
  | 0x4b => ext w xs [] (some (.loopi (fld w 9 4096) (uimm w 9 xs)))
  | 0x50 => ext w xs [(18, 3)] (some (.cmpiEq (fld w 15 8) (fld w 9 64) (simm w 9 xs)))
  | 0x51 => ext w xs [(18, 3)] (some (.cmpiNe (fld w 15 8) (fld w 9 64) (simm w 9 xs)))
  | 0x52 => ext w xs [(18, 3)] (some (.cmpiLt (fld w 15 8) (fld w 9 64) (simm w 9 xs)))
  | 0x53 => ext w xs [(18, 3)] (some (.cmpiLe (fld w 15 8) (fld w 9 64) (simm w 9 xs)))
  | 0x54 => ext w xs [(18, 3)] (some (.cmpiLtu (fld w 15 8) (fld w 9 64) (simm w 9 xs)))
  | 0x55 => ext w xs [(18, 3)] (some (.cmpiLeu (fld w 15 8) (fld w 9 64) (simm w 9 xs)))
  | 0x60 => ext w xs [] (some (.br (bitAt w 20) (fld w 17 8) (simm w 17 xs)))
  | 0x61 => ext w xs [(17, 4)] (some (.j (simm w 17 xs)))
  | 0x62 => ext w xs [(17, 4)] (some (.call (simm w 17 xs)))
  | _ => .unassigned

/-- The vector opcode map (R61). -/
def decodeVector (w : Nat) (xs : List Nat) : SylResult :=
  match w / 2 ^ 21 % 128 with
  | 0x0 => plain w xs [] ((VFmt.ofCode (w / 2 ^ 3 % 8)).bind fun fmt => some (.vadd (fld w 16 32) (fld w 11 32) (fld w 6 32) fmt (fld w 0 8)))
  | 0x1 => plain w xs [] ((VFmt.ofCode (w / 2 ^ 3 % 8)).bind fun fmt => some (.vsub (fld w 16 32) (fld w 11 32) (fld w 6 32) fmt (fld w 0 8)))
  | 0x2 => plain w xs [] ((VFmt.ofCode (w / 2 ^ 3 % 8)).bind fun fmt => some (.vmul (fld w 16 32) (fld w 11 32) (fld w 6 32) fmt (fld w 0 8)))
  | 0x3 => plain w xs [] ((VFmt.ofCode (w / 2 ^ 3 % 8)).bind fun fmt => some (.vfma (fld w 16 32) (fld w 11 32) (fld w 6 32) fmt (fld w 0 8)))
  | 0x4 => plain w xs [] ((VFmt.ofCode (w / 2 ^ 3 % 8)).bind fun fmt => some (.vmax (fld w 16 32) (fld w 11 32) (fld w 6 32) fmt (fld w 0 8)))
  | 0x5 => plain w xs [] ((VFmt.ofCode (w / 2 ^ 3 % 8)).bind fun fmt => some (.vmin (fld w 16 32) (fld w 11 32) (fld w 6 32) fmt (fld w 0 8)))
  | 0x6 => plain w xs [(6, 5)] ((VFmt.ofCode (w / 2 ^ 3 % 8)).bind fun fmt => some (.vabs (fld w 16 32) (fld w 11 32) fmt (fld w 0 8)))
  | 0x7 => plain w xs [(6, 5)] ((VFmt.ofCode (w / 2 ^ 3 % 8)).bind fun fmt => some (.vneg (fld w 16 32) (fld w 11 32) fmt (fld w 0 8)))
  | 0x8 => plain w xs [] ((VFmt.ofCode (w / 2 ^ 3 % 8)).bind fun fmt => some (.vand (fld w 16 32) (fld w 11 32) (fld w 6 32) fmt (fld w 0 8)))
  | 0x9 => plain w xs [] ((VFmt.ofCode (w / 2 ^ 3 % 8)).bind fun fmt => some (.vor (fld w 16 32) (fld w 11 32) (fld w 6 32) fmt (fld w 0 8)))
  | 0xa => plain w xs [] ((VFmt.ofCode (w / 2 ^ 3 % 8)).bind fun fmt => some (.vxor (fld w 16 32) (fld w 11 32) (fld w 6 32) fmt (fld w 0 8)))
  | 0xb => plain w xs [] ((VFmt.ofCode (w / 2 ^ 3 % 8)).bind fun fmt => some (.vshl (fld w 16 32) (fld w 11 32) (fld w 6 32) fmt (fld w 0 8)))
  | 0xc => plain w xs [] ((VFmt.ofCode (w / 2 ^ 3 % 8)).bind fun fmt => some (.vshr (fld w 16 32) (fld w 11 32) (fld w 6 32) fmt (fld w 0 8)))
  | 0xd => plain w xs [] ((VFmt.ofCode (w / 2 ^ 3 % 8)).bind fun fmt => some (.vsel (fld w 16 32) (fld w 11 32) (fld w 6 32) fmt (fld w 0 8)))
  | 0xe => plain w xs [(6, 5)] ((VFmt.ofCode (w / 2 ^ 3 % 8)).bind fun fmt => some (.vmov (fld w 16 32) (fld w 11 32) fmt (fld w 0 8)))
  | 0xf => plain w xs [(9, 2)] ((Rounding.ofCode (w / 2 ^ 6 % 4)).bind fun rm => (VFmt.ofCode (w / 2 ^ 3 % 8)).bind fun fmt => some (.vcvt (fld w 16 32) (fld w 11 32) (bitAt w 8) rm fmt (fld w 0 8)))
  | 0x10 => plain w xs [(20, 1)] ((VFmt.ofCode (w / 2 ^ 3 % 8)).bind fun fmt => some (.vcmpEq (fld w 16 16) (fld w 11 32) (fld w 6 32) fmt (fld w 0 8)))
  | 0x11 => plain w xs [(20, 1)] ((VFmt.ofCode (w / 2 ^ 3 % 8)).bind fun fmt => some (.vcmpNe (fld w 16 16) (fld w 11 32) (fld w 6 32) fmt (fld w 0 8)))
  | 0x12 => plain w xs [(20, 1)] ((VFmt.ofCode (w / 2 ^ 3 % 8)).bind fun fmt => some (.vcmpLt (fld w 16 16) (fld w 11 32) (fld w 6 32) fmt (fld w 0 8)))
  | 0x13 => plain w xs [(20, 1)] ((VFmt.ofCode (w / 2 ^ 3 % 8)).bind fun fmt => some (.vcmpLe (fld w 16 16) (fld w 11 32) (fld w 6 32) fmt (fld w 0 8)))
  | 0x14 => plain w xs [(8, 3)] ((RedOp.ofCode (w / 2 ^ 6 % 4)).bind fun op => (VFmt.ofCode (w / 2 ^ 3 % 8)).bind fun fmt => some (.vred (fld w 16 32) (fld w 11 32) op fmt (fld w 0 8)))
  | 0x15 => plain w xs [(8, 3)] ((RedOp.ofCode (w / 2 ^ 6 % 4)).bind fun op => (VFmt.ofCode (w / 2 ^ 3 % 8)).bind fun fmt => some (.vredc (fld w 16 32) (fld w 11 32) op fmt (fld w 0 8)))
  | 0x16 => plain w xs [(8, 3)] ((RedOp.ofCode (w / 2 ^ 6 % 4)).bind fun op => (VFmt.ofCode (w / 2 ^ 3 % 8)).bind fun fmt => some (.vscan (fld w 16 32) (fld w 11 32) op fmt (fld w 0 8)))
  | 0x17 => plain w xs [(6, 5)] ((VFmt.ofCode (w / 2 ^ 3 % 8)).bind fun fmt => some (.vtrans (fld w 16 32) (fld w 11 32) fmt (fld w 0 8)))
  | 0x18 => plain w xs [] ((VFmt.ofCode (w / 2 ^ 3 % 8)).bind fun fmt => some (.vperm (fld w 16 32) (fld w 11 32) (fld w 6 32) fmt (fld w 0 8)))
  | 0x19 => plain w xs [] ((Rounding.ofCode (w / 2 ^ 9 % 4)).bind fun rm => (PackFmt.ofCode (w / 2 ^ 6 % 8)).bind fun pk => (VFmt.ofCode (w / 2 ^ 3 % 8)).bind fun fmt => some (.vpack (fld w 16 32) (fld w 11 32) rm pk fmt (fld w 0 8)))
  | 0x1a => plain w xs [] ((Rounding.ofCode (w / 2 ^ 9 % 4)).bind fun rm => (PackFmt.ofCode (w / 2 ^ 6 % 8)).bind fun pk => (VFmt.ofCode (w / 2 ^ 3 % 8)).bind fun fmt => some (.vunpk (fld w 16 32) (fld w 11 32) rm pk fmt (fld w 0 8)))
  | 0x1b => plain w xs [(6, 5)] ((VFmt.ofCode (w / 2 ^ 3 % 8)).bind fun fmt => some (.vexpd (fld w 16 32) (fld w 11 32) fmt (fld w 0 8)))
  | 0x1c => plain w xs [(0, 3), (6, 5), (17, 4)] ((VFmt.ofCode (w / 2 ^ 3 % 8)).bind fun fmt => some (.vpush (bitAt w 16) (fld w 11 32) fmt))
  | 0x1d => plain w xs [(10, 1), (15, 1), (20, 1)] ((LogFn.ofCode (w / 2 ^ 3 % 8)).bind fun fn => some (.mlog (fld w 16 16) (fld w 11 16) (fld w 6 16) fn (fld w 0 8)))
  | 0x20 => plain w xs [(3, 2), (11, 5)] (some (.vbcast (fld w 16 32) (fld w 5 64) (fld w 0 8)))
  | 0x21 => plain w xs [(3, 2), (11, 5)] (some (.viota (fld w 16 32) (fld w 5 64) (fld w 0 8)))
  | 0x22 =>
    match w / 2 ^ 3 % 4 with
    | 0 => plain w xs [(11, 5)] (if (fld w 5 64 : SReg).val = 63 then none else some (.vrngCo (fld w 16 32) (fld w 5 64) (fld w 0 8)))
    | 1 => plain w xs [(11, 5)] (some (.vrngLc (fld w 16 32) (fld w 5 64) (fld w 0 8)))
    | _ => plain w xs [] none
  | 0x23 => plain w xs [(3, 2)] (some (.vcomp (fld w 16 32) (fld w 11 32) (fld w 5 64) (fld w 0 8)))
  | 0x24 => plain w xs [(0, 5), (11, 10)] (some (.vshape (fld w 5 64)))
  | 0x25 => plain w xs [(3, 2), (15, 6)] (some (.mpop (fld w 11 16) (fld w 5 64) (fld w 0 8)))
  | _ => .unassigned

/-- The special opcode map (R62). -/
def decodeSpecial (w : Nat) (xs : List Nat) : SylResult :=
  match w / 2 ^ 24 % 16 with
  | 0x0 => plain w xs [] ((SfFmt.ofCode (w / 2 ^ 9 % 4)).bind fun fmt => some (.sfrcp (fld w 19 32) (fld w 14 32) (fld w 11 8) fmt (fld w 6 8)))
  | 0x1 => plain w xs [] ((SfFmt.ofCode (w / 2 ^ 9 % 4)).bind fun fmt => some (.sfrsq (fld w 19 32) (fld w 14 32) (fld w 11 8) fmt (fld w 6 8)))
  | 0x2 => plain w xs [] ((SfFmt.ofCode (w / 2 ^ 9 % 4)).bind fun fmt => some (.sfexp (fld w 19 32) (fld w 14 32) (fld w 11 8) fmt (fld w 6 8)))
  | 0x3 => plain w xs [] ((SfFmt.ofCode (w / 2 ^ 9 % 4)).bind fun fmt => some (.sflog (fld w 19 32) (fld w 14 32) (fld w 11 8) fmt (fld w 6 8)))
  | 0x4 => plain w xs [] ((SfFmt.ofCode (w / 2 ^ 9 % 4)).bind fun fmt => some (.sftanh (fld w 19 32) (fld w 14 32) (fld w 11 8) fmt (fld w 6 8)))
  | 0x5 => plain w xs [] ((SfFmt.ofCode (w / 2 ^ 9 % 4)).bind fun fmt => some (.sfsig (fld w 19 32) (fld w 14 32) (fld w 11 8) fmt (fld w 6 8)))
  | 0x6 => plain w xs [] ((SfFmt.ofCode (w / 2 ^ 9 % 4)).bind fun fmt => some (.sfsin (fld w 19 32) (fld w 14 32) (fld w 11 8) fmt (fld w 6 8)))
  | 0x7 => plain w xs [] ((SfFmt.ofCode (w / 2 ^ 9 % 4)).bind fun fmt => some (.sfcos (fld w 19 32) (fld w 14 32) (fld w 11 8) fmt (fld w 6 8)))
  | _ => .unassigned

/-- The memory opcode map (R65, R67). -/
def decodeMemory (w : Nat) (xs : List Nat) : SylResult :=
  match w / 2 ^ 21 % 128 with
  | 0x0 => ext w xs [] (some (.ldI8 (fld w 15 64) (fld w 9 64) (simm w 9 xs)))
  | 0x1 => ext w xs [] (some (.ldU8 (fld w 15 64) (fld w 9 64) (simm w 9 xs)))
  | 0x2 => ext w xs [] (some (.ldI16 (fld w 15 64) (fld w 9 64) (simm w 9 xs)))
  | 0x3 => ext w xs [] (some (.ldI32 (fld w 15 64) (fld w 9 64) (simm w 9 xs)))
  | 0x4 => ext w xs [] (some (.ldI64 (fld w 15 64) (fld w 9 64) (simm w 9 xs)))
  | 0x5 => ext w xs [] (some (.pref (fld w 9 64) (simm w 9 xs)))
  | 0x6 => ext w xs [(15, 6)] (some (.flush (fld w 9 64) (simm w 9 xs)))
  | 0x8 => ext w xs [] (some (.ldsI8 (fld w 15 64) (fld w 9 64) (simm w 9 xs)))
  | 0x9 => ext w xs [] (some (.ldsU8 (fld w 15 64) (fld w 9 64) (simm w 9 xs)))
  | 0xa => ext w xs [] (some (.ldsI16 (fld w 15 64) (fld w 9 64) (simm w 9 xs)))
  | 0xb => ext w xs [] (some (.ldsI32 (fld w 15 64) (fld w 9 64) (simm w 9 xs)))
  | 0xc => ext w xs [] (some (.ldsI64 (fld w 15 64) (fld w 9 64) (simm w 9 xs)))
  | 0x10 => ext w xs [] (some (.stI8 (fld w 15 64) (fld w 9 64) (simm w 9 xs)))
  | 0x11 => ext w xs [] (some (.stI16 (fld w 15 64) (fld w 9 64) (simm w 9 xs)))
  | 0x12 => ext w xs [] (some (.stI32 (fld w 15 64) (fld w 9 64) (simm w 9 xs)))
  | 0x13 => ext w xs [] (some (.stI64 (fld w 15 64) (fld w 9 64) (simm w 9 xs)))
  | 0x14 => ext w xs [] (some (.ldv (fld w 16 32) (fld w 10 64) (fld w 6 16) (simm w 6 xs)))
  | 0x15 => ext w xs [] (some (.stv (fld w 16 32) (fld w 10 64) (fld w 6 16) (simm w 6 xs)))
  | 0x16 => plain w xs [] (some (.vgather (fld w 16 32) (fld w 10 64) (fld w 6 16) (bitAt w 5) (fld w 0 32)))
  | 0x17 => plain w xs [] (some (.vscatter (fld w 16 32) (fld w 10 64) (fld w 6 16) (bitAt w 5) (fld w 0 32)))
  | 0x18 => ext w xs [] (some (.amoAddI64 (fld w 15 64) (fld w 9 64) (simm w 9 xs)))
  | 0x19 => ext w xs [] (some (.amoAndI64 (fld w 15 64) (fld w 9 64) (simm w 9 xs)))
  | 0x1a => ext w xs [] (some (.amoOrI64 (fld w 15 64) (fld w 9 64) (simm w 9 xs)))
  | 0x1b => ext w xs [] (some (.amoXorI64 (fld w 15 64) (fld w 9 64) (simm w 9 xs)))
  | 0x1c => ext w xs [] (some (.amoMinI64 (fld w 15 64) (fld w 9 64) (simm w 9 xs)))
  | 0x1d => ext w xs [] (some (.amoMaxI64 (fld w 15 64) (fld w 9 64) (simm w 9 xs)))
  | 0x1e => ext w xs [] (some (.amoSwapI64 (fld w 15 64) (fld w 9 64) (simm w 9 xs)))
  | 0x1f => ext w xs [] (if (fld w 15 64 : SReg).val = 63 then none else some (.amoCasI64 (fld w 15 64) (fld w 9 64) (simm w 9 xs)))
  | 0x20 => plain w xs [] (some (.ldI8Index (fld w 15 64) (fld w 9 64) (fld w 3 64) (fld w 0 8)))
  | 0x21 => plain w xs [] (some (.ldU8Index (fld w 15 64) (fld w 9 64) (fld w 3 64) (fld w 0 8)))
  | 0x22 => plain w xs [] (some (.ldI16Index (fld w 15 64) (fld w 9 64) (fld w 3 64) (fld w 0 8)))
  | 0x23 => plain w xs [] (some (.ldI32Index (fld w 15 64) (fld w 9 64) (fld w 3 64) (fld w 0 8)))
  | 0x24 => plain w xs [] (some (.ldI64Index (fld w 15 64) (fld w 9 64) (fld w 3 64) (fld w 0 8)))
  | 0x25 => plain w xs [] (some (.prefIndex (fld w 9 64) (fld w 3 64) (fld w 0 8)))
  | 0x28 => plain w xs [] (some (.ldsI8Index (fld w 15 64) (fld w 9 64) (fld w 3 64) (fld w 0 8)))
  | 0x29 => plain w xs [] (some (.ldsU8Index (fld w 15 64) (fld w 9 64) (fld w 3 64) (fld w 0 8)))
  | 0x2a => plain w xs [] (some (.ldsI16Index (fld w 15 64) (fld w 9 64) (fld w 3 64) (fld w 0 8)))
  | 0x2b => plain w xs [] (some (.ldsI32Index (fld w 15 64) (fld w 9 64) (fld w 3 64) (fld w 0 8)))
  | 0x2c => plain w xs [] (some (.ldsI64Index (fld w 15 64) (fld w 9 64) (fld w 3 64) (fld w 0 8)))
  | 0x30 => plain w xs [] (some (.stI8Index (fld w 15 64) (fld w 9 64) (fld w 3 64) (fld w 0 8)))
  | 0x31 => plain w xs [] (some (.stI16Index (fld w 15 64) (fld w 9 64) (fld w 3 64) (fld w 0 8)))
  | 0x32 => plain w xs [] (some (.stI32Index (fld w 15 64) (fld w 9 64) (fld w 3 64) (fld w 0 8)))
  | 0x33 => plain w xs [] (some (.stI64Index (fld w 15 64) (fld w 9 64) (fld w 3 64) (fld w 0 8)))
  | 0x38 => ext w xs [] (some (.amoAddI32 (fld w 15 64) (fld w 9 64) (simm w 9 xs)))
  | 0x39 => ext w xs [] (some (.amoAndI32 (fld w 15 64) (fld w 9 64) (simm w 9 xs)))
  | 0x3a => ext w xs [] (some (.amoOrI32 (fld w 15 64) (fld w 9 64) (simm w 9 xs)))
  | 0x3b => ext w xs [] (some (.amoXorI32 (fld w 15 64) (fld w 9 64) (simm w 9 xs)))
  | 0x3c => ext w xs [] (some (.amoMinI32 (fld w 15 64) (fld w 9 64) (simm w 9 xs)))
  | 0x3d => ext w xs [] (some (.amoMaxI32 (fld w 15 64) (fld w 9 64) (simm w 9 xs)))
  | 0x3e => ext w xs [] (some (.amoSwapI32 (fld w 15 64) (fld w 9 64) (simm w 9 xs)))
  | 0x3f => ext w xs [] (if (fld w 15 64 : SReg).val = 63 then none else some (.amoCasI32 (fld w 15 64) (fld w 9 64) (simm w 9 xs)))
  | 0x40 => ext w xs [] (some (.sldI8 (fld w 15 64) (fld w 9 64) (uimm w 9 xs)))
  | 0x41 => ext w xs [] (some (.sldU8 (fld w 15 64) (fld w 9 64) (uimm w 9 xs)))
  | 0x42 => ext w xs [] (some (.sldI16 (fld w 15 64) (fld w 9 64) (uimm w 9 xs)))
  | 0x43 => ext w xs [] (some (.sldI32 (fld w 15 64) (fld w 9 64) (uimm w 9 xs)))
  | 0x44 => ext w xs [] (some (.sldI64 (fld w 15 64) (fld w 9 64) (uimm w 9 xs)))
  | 0x48 => ext w xs [] (some (.sstI8 (fld w 15 64) (fld w 9 64) (uimm w 9 xs)))
  | 0x49 => ext w xs [] (some (.sstI16 (fld w 15 64) (fld w 9 64) (uimm w 9 xs)))
  | 0x4a => ext w xs [] (some (.sstI32 (fld w 15 64) (fld w 9 64) (uimm w 9 xs)))
  | 0x4b => ext w xs [] (some (.sstI64 (fld w 15 64) (fld w 9 64) (uimm w 9 xs)))
  | 0x50 => ext w xs [(20, 1)] (some (.sldv (fld w 15 32) (fld w 9 64) (uimm w 9 xs)))
  | 0x51 => ext w xs [(20, 1)] (some (.sstv (fld w 15 32) (fld w 9 64) (uimm w 9 xs)))
  | 0x52 => ext w xs [(20, 1)] (some (.sldt (fld w 15 32) (fld w 9 64) (uimm w 9 xs)))
  | 0x53 => ext w xs [(19, 2)] (some (.slds (fld w 15 16) (fld w 9 64) (uimm w 9 xs)))
  | 0x60 => ext w xs [] (some (.sldI8Regoff (fld w 15 64) (fld w 9 64) (fld w 3 64) (uimm w 3 xs)))
  | 0x61 => ext w xs [] (some (.sldU8Regoff (fld w 15 64) (fld w 9 64) (fld w 3 64) (uimm w 3 xs)))
  | 0x62 => ext w xs [] (some (.sldI16Regoff (fld w 15 64) (fld w 9 64) (fld w 3 64) (uimm w 3 xs)))
  | 0x63 => ext w xs [] (some (.sldI32Regoff (fld w 15 64) (fld w 9 64) (fld w 3 64) (uimm w 3 xs)))
  | 0x64 => ext w xs [] (some (.sldI64Regoff (fld w 15 64) (fld w 9 64) (fld w 3 64) (uimm w 3 xs)))
  | 0x68 => ext w xs [] (some (.sstI8Regoff (fld w 15 64) (fld w 9 64) (fld w 3 64) (uimm w 3 xs)))
  | 0x69 => ext w xs [] (some (.sstI16Regoff (fld w 15 64) (fld w 9 64) (fld w 3 64) (uimm w 3 xs)))
  | 0x6a => ext w xs [] (some (.sstI32Regoff (fld w 15 64) (fld w 9 64) (fld w 3 64) (uimm w 3 xs)))
  | 0x6b => ext w xs [] (some (.sstI64Regoff (fld w 15 64) (fld w 9 64) (fld w 3 64) (uimm w 3 xs)))
  | 0x70 => ext w xs [(20, 1)] (some (.sldvRegoff (fld w 15 32) (fld w 9 64) (fld w 3 64) (uimm w 3 xs)))
  | 0x71 => ext w xs [(20, 1)] (some (.sstvRegoff (fld w 15 32) (fld w 9 64) (fld w 3 64) (uimm w 3 xs)))
  | 0x72 => ext w xs [(20, 1)] (some (.sldtRegoff (fld w 15 32) (fld w 9 64) (fld w 3 64) (uimm w 3 xs)))
  | 0x73 => ext w xs [(19, 2)] (some (.sldsRegoff (fld w 15 16) (fld w 9 64) (fld w 3 64) (uimm w 3 xs)))
  | _ => .unassigned

/-- The engine opcode map (R70). -/
def decodeEngine (w : Nat) (xs : List Nat) : SylResult :=
  match w / 2 ^ 21 % 128 with
  | 0x0 => plain w xs [(3, 6)] (some (.cpy (fld w 15 64) (fld w 9 64) (fld w 0 8)))
  | 0x1 => plain w xs [(3, 1), (6, 3)] (some (.cegeo (fld w 15 64) (fld w 9 64) (fld w 4 4) (fld w 0 8)))
  | 0x2 => plain w xs [(6, 3)] (some (.fapar (fld w 15 64) (fld w 9 64) (fld w 3 8) (fld w 0 8)))
  | 0x3 => plain w xs [] ((FaFmt.ofCode (w / 2 ^ 0 % 16)).bind fun fmt => some (.facall (fld w 12 512) (fld w 4 256) fmt))
  | 0x4 => plain w xs [(3, 18)] (some (.fawait (fld w 0 8)))
  | 0x5 => plain w xs [(3, 12)] (some (.fastat (fld w 15 64) (fld w 0 8)))
  | 0x6 => plain w xs [(8, 13)] ((FaFmt.ofCode (w / 2 ^ 3 % 16)).bind fun fmt => some (.fafmt (bitAt w 7) fmt (fld w 0 8)))
  | 0x7 => plain w xs [(3, 6)] (some (.fampw (fld w 15 64) (fld w 9 64) (fld w 0 8)))
  | 0x8 => plain w xs [(3, 6)] (some (.binit (fld w 15 64) (fld w 9 64) (fld w 0 8)))
  | 0x9 => plain w xs [(3, 6)] (some (.bexp (fld w 15 64) (fld w 9 64) (fld w 0 8)))
  | 0xa => plain w xs [(3, 12)] (some (.barv (fld w 15 64) (fld w 0 8)))
  | 0xb => plain w xs [(3, 6)] (some (.btest (fld w 15 64) (fld w 9 64) (fld w 0 8)))
  | 0xc => plain w xs [(4, 11)] (some (.bwait (fld w 15 64) (bitAt w 3) (fld w 0 8)))
  | 0xd => plain w xs [(7, 2)] (some (.bankgive (fld w 15 64) (fld w 9 64) (fld w 3 16) (fld w 0 8)))
  | 0x10 =>
    match w / 2 ^ 3 % 8 with
    | 0 => plain w xs [] (some (.spawn (fld w 15 64) (fld w 9 64) (fld w 6 8) (fld w 0 8)))
    | 1 => plain w xs [(6, 9)] (some (.spawnJoin (fld w 15 64) (fld w 0 8)))
    | _ => plain w xs [] none
  | 0x11 => plain w xs [(3, 6)] (some (.task (fld w 15 64) (fld w 9 64) (fld w 0 8)))
  | 0x12 => plain w xs [(9, 6)] (some (.tdep (fld w 15 64) (fld w 3 64) (fld w 0 8)))
  | 0x13 => plain w xs [(0, 15)] (some (.gang (fld w 15 64)))
  | 0x14 => plain w xs [(0, 21)] (some (.gend))
  | 0x15 => plain w xs [(3, 12)] (some (.tswait (fld w 15 64) (fld w 0 8)))
  | 0x18 => plain w xs [(3, 6)] (some (.smap (fld w 15 64) (fld w 9 64) (fld w 0 8)))
  | 0x19 => plain w xs [(3, 6)] (some (.sunmap (fld w 15 64) (fld w 9 64) (fld w 0 8)))
  | 0x1a => plain w xs [(3, 6)] (some (.swb (fld w 15 64) (fld w 9 64) (fld w 0 8)))
  | 0x1b => plain w xs [(3, 6)] (some (.preq (fld w 15 64) (fld w 9 64) (fld w 0 8)))
  | 0x1c => plain w xs [(3, 6)] (some (.reloc (fld w 15 64) (fld w 9 64) (fld w 0 8)))
  | 0x1d => plain w xs [(3, 6)] (some (.msweep (fld w 15 64) (fld w 9 64) (fld w 0 8)))
  | 0x1e => plain w xs [(3, 6)] (some (.rsgo (fld w 15 64) (fld w 9 64) (fld w 0 8)))
  | 0x1f => plain w xs [(3, 6)] (some (.rsprog (fld w 15 64) (fld w 9 64) (fld w 0 8)))
  | 0x20 => plain w xs [(3, 6)] (some (.coll (fld w 15 64) (fld w 9 64) (fld w 0 8)))
  | 0x21 => plain w xs [(3, 6)] (some (.pcnt (fld w 15 64) (fld w 9 64) (fld w 0 8)))
  | 0x22 => plain w xs [(9, 6)] (some (.pwait (fld w 15 64) (fld w 3 64) (fld w 0 8)))
  | 0x23 => plain w xs [(3, 6)] (some (.pcancel (fld w 15 64) (fld w 9 64) (fld w 0 8)))
  | 0x24 =>
    match w / 2 ^ 3 % 64 with
    | 0 => plain w xs [(9, 12)] (some (.fenceEng (fld w 0 8)))
    | 1 => plain w xs [(9, 12)] (some (.fenceSys (fld w 0 8)))
    | _ => plain w xs [] none
  | 0x25 =>
    match w / 2 ^ 3 % 64 with
    | 0 => plain w xs [(9, 12)] (some (.tlbinvAll (fld w 0 8)))
    | 1 => plain w xs [] (some (.tlbinvVa (fld w 15 64) (fld w 9 64) (fld w 0 8)))
    | 2 => plain w xs [(9, 6)] (some (.tlbinvAs (fld w 15 64) (fld w 0 8)))
    | _ => plain w xs [] none
  | _ => .unassigned

/-- The class of a syllable (R47). -/
def sylClass (w : Nat) : Nat := w / 2 ^ 28 % 8

/-- One syllable of classes 0 to 4 with the payloads of its extension syllables. -/
def decodeSyl (w : Nat) (xs : List Nat) : SylResult :=
  match sylClass w with
  | 0 => decodeScalar w xs
  | 1 => decodeVector w xs
  | 2 => decodeSpecial w xs
  | 3 => decodeMemory w xs
  | 4 => decodeEngine w xs
  | _ => .unassigned

/-! Bundles. -/

/-- Position of a syllable's class in the order of R48, with M0 before M1. -/
def classRank (w : Nat) : Nat :=
  match sylClass w with
  | 0 => 0 | 1 => 1 | 2 => 2 | 3 => if bitAt w 27 then 4 else 3 | 4 => 5 | _ => 6
/-- Most syllables of one rank in a bundle (R49). -/
def rankLimit : Nat → Nat
  | 0 => 2 | 1 => 3 | _ => 1
/-- The first slot of a rank: S0, V0, F, M0, M1, E are slots 0, 2, 5, 6, 7, 8 (R48, R210). -/
def rankSlot : Nat → Nat
  | 0 => 0 | 1 => 2 | 2 => 5 | 3 => 6 | 4 => 7 | _ => 8

/-- The scalar opcode of a syllable. -/
def scalarOp (w : Nat) : Nat := if sylClass w = 0 then w / 2 ^ 21 % 128 else 128
/-- BR, J, JR, CALL, RET, CHK and ERET by opcode (R51). -/
def isTransferWord (w : Nat) : Bool := [0x1E, 0x1F, 0x2A, 0x47, 0x60, 0x61, 0x62].contains (scalarOp w)
/-- LOOP and LOOPI by opcode. -/
def isLoopWord (w : Nat) : Bool := [0x4A, 0x4B].contains (scalarOp w)

/-- A syllable of a bundle with the payloads of the X syllables behind it. -/
structure Syl where
  word : Nat
  xs : List Nat
  deriving DecidableEq, Repr

/-- Syllables with the X syllables behind each (R48 step 1). An X syllable at the head of a bundle belongs to no
syllable; the decoder reports it (sub-code 0x04). -/
def groupSyls : List Nat → List Syl
  | [] => []
  | w :: ws =>
    if sylClass w = 5 then groupSyls ws
    else { word := w, xs := (ws.takeWhile fun x => sylClass x == 5).map (· % 2 ^ 28) } :: groupSyls ws

/-- Slots in order: the k-th syllable of a rank takes the k-th slot of its class (R48). -/
def assignSlots : List Syl → List (Nat × Syl)
  | ss => (ss.zipIdx).map fun (s, i) =>
      (rankSlot (classRank s.word) + ((ss.take i).countP fun t => classRank t.word == classRank s.word), s)

/-- Whether ranks do not fall (R48 step 2). -/
def ranksSorted : List Nat → Bool
  | [] => true
  | [_] => true
  | a :: b :: rest => decide (a ≤ b) && ranksSorted (b :: rest)

/-- A decoded bundle: its slot syllables, and every check of R52 that needs no other state and fails, as
(sub-code, slot), slot 15 for the bundle as a whole (R210). -/
structure Bundle where
  syls : List (Nat × Instr)
  errs : List (Nat × Nat)
  deriving DecidableEq, Repr

/-- Decode a whole bundle (R48 to R53). `inDelay`: it is a delay bundle (R51). An X after a syllable of an unassigned opcode
counts toward the third X of a bundle like every other (R49, R52; log entry 71). The checks that concern several syllables,
0x03 to 0x06 and the second loop of 0x09, name slot 15, which no rule says (log entry 109). -/
def decodeBundle (inDelay : Bool) (ws : List Nat) : Bundle :=
  let syls := groupSyls ws
  let slots := assignSlots syls
  let ranks := syls.map fun s => classRank s.word
  let res := slots.map fun (k, s) => (k, s.word, decodeSyl s.word s.xs)
  let loops := syls.countP fun s => isLoopWord s.word
  let transfers := syls.countP fun s => isTransferWord s.word
  let nx := ws.countP fun w => sylClass w == 5
  { syls := res.filterMap fun (k, _, r) => match r with | .ok i => some (k, i) | _ => none
    errs :=
      (if ws.any (fun w => 5 < sylClass w) then [(0x03, 15)] else []) ++
      (if (ws.head?.map fun w => sylClass w == 5) == some true || 2 < nx ||
          res.any (fun (_, _, r) => r == .misplacedX) then [(0x04, 15)] else []) ++
      (if ranksSorted ranks then [] else [(0x05, 15)]) ++
      (if (List.range 6).any (fun r => rankLimit r < ranks.count r) then [(0x06, 15)] else []) ++
      (res.filterMap fun (k, w, _) =>
        if isTransferWord w && (k != 0 || inDelay) then some (0x07, k) else none) ++
      (res.filterMap fun (k, w, _) => if isLoopWord w && 0 < transfers then some (0x07, k) else none) ++
      (res.filterMap fun (k, _, r) => if r == .unassigned then some (0x08, k) else none) ++
      (res.filterMap fun (k, _, r) => if r == .reserved then some (0x09, k) else none) ++
      (if 1 < loops then [(0x09, 15)] else []) }

/-- The decoder on a single syllable in the numbering of the opcode table; bit 31 (L) belongs to the bundle. -/
def decodeTableWord (nbits w : Nat) : Option Instr :=
  if nbits = 32 then
    match decodeSyl (w % 2 ^ 31) [] with
    | .ok i => some i
    | _ => none
  else none

/-! Encoding. -/

/-- The fewest X payloads that represent a signed value in a field of width `n` (R37). -/
def extS (n : Nat) (v : Int) : List Nat :=
  let u := (v % 2 ^ (n + 56)).toNat
  if -(2 ^ (n - 1)) ≤ v ∧ v < 2 ^ (n - 1) then []
  else if -(2 ^ (n + 27)) ≤ v ∧ v < 2 ^ (n + 27) then [u / 2 ^ n % 2 ^ 28]
  else [u / 2 ^ n % 2 ^ 28, u / 2 ^ (n + 28) % 2 ^ 28]
/-- The same for an unsigned value. -/
def extU (n v : Nat) : List Nat :=
  if v < 2 ^ n then []
  else if v < 2 ^ (n + 28) then [v / 2 ^ n]
  else [v / 2 ^ n % 2 ^ 28, v / 2 ^ (n + 28)]
/-- The low field of a signed value. -/
def lowS (n : Nat) (v : Int) : Nat := (v % 2 ^ n).toNat

/-- A syllable from its fixed bits and its operand fields, each a value and its lowest bit. -/
def pack (base : Nat) (fs : List (Nat × Nat)) : Nat := fs.foldl (fun acc f => acc + f.1 * 2 ^ f.2) base

/-- The syllable and the X payloads of the scalar forms (R57, R58). -/
def encodeScalar : Instr → Option (Nat × List Nat)
  | .add d a b g => some (pack 0x0 [(d.val, 15), (a.val, 9), (b.val, 3), (g.val, 0)], [])
  | .sub d a b g => some (pack 0x200000 [(d.val, 15), (a.val, 9), (b.val, 3), (g.val, 0)], [])
  | .and d a b g => some (pack 0x400000 [(d.val, 15), (a.val, 9), (b.val, 3), (g.val, 0)], [])
  | .or d a b g => some (pack 0x600000 [(d.val, 15), (a.val, 9), (b.val, 3), (g.val, 0)], [])
  | .xor d a b g => some (pack 0x800000 [(d.val, 15), (a.val, 9), (b.val, 3), (g.val, 0)], [])
  | .shl d a b g => some (pack 0xa00000 [(d.val, 15), (a.val, 9), (b.val, 3), (g.val, 0)], [])
  | .shr d a b g => some (pack 0xc00000 [(d.val, 15), (a.val, 9), (b.val, 3), (g.val, 0)], [])
  | .shra d a b g => some (pack 0xe00000 [(d.val, 15), (a.val, 9), (b.val, 3), (g.val, 0)], [])
  | .rot d a b g => some (pack 0x1000000 [(d.val, 15), (a.val, 9), (b.val, 3), (g.val, 0)], [])
  | .mul d a b g => some (pack 0x1200000 [(d.val, 15), (a.val, 9), (b.val, 3), (g.val, 0)], [])
  | .mulh d a b g => some (pack 0x1400000 [(d.val, 15), (a.val, 9), (b.val, 3), (g.val, 0)], [])
  | .div d a b g => some (pack 0x1600000 [(d.val, 15), (a.val, 9), (b.val, 3), (g.val, 0)], [])
  | .rem d a b g => some (pack 0x1800000 [(d.val, 15), (a.val, 9), (b.val, 3), (g.val, 0)], [])
  | .max d a b g => some (pack 0x1a00000 [(d.val, 15), (a.val, 9), (b.val, 3), (g.val, 0)], [])
  | .min d a b g => some (pack 0x1c00000 [(d.val, 15), (a.val, 9), (b.val, 3), (g.val, 0)], [])
  | .sel d a b p => some (pack 0x1e00000 [(d.val, 15), (a.val, 9), (b.val, 3), (p.val, 0)], [])
  | .clz d a g => some (pack 0x2000000 [(d.val, 15), (a.val, 9), (g.val, 0)], [])
  | .popc d a g => some (pack 0x2200000 [(d.val, 15), (a.val, 9), (g.val, 0)], [])
  | .ext d a b g => some (pack 0x2400000 [(d.val, 15), (a.val, 9), (b.val, 3), (g.val, 0)], [])
  | .ins d a b g => some (pack 0x2600000 [(d.val, 15), (a.val, 9), (b.val, 3), (g.val, 0)], [])
  | .plog d a fn b g => some (pack 0x2800000 [(d.val, 15), (a.val, 9), (fn.code, 6), (b.val, 3), (g.val, 0)], [])
  | .fadd d a b g => some (pack 0x2a00000 [(d.val, 15), (a.val, 9), (b.val, 3), (g.val, 0)], [])
  | .fmul d a b g => some (pack 0x2c00000 [(d.val, 15), (a.val, 9), (b.val, 3), (g.val, 0)], [])
  | .ffma d a b g => some (pack 0x2e00000 [(d.val, 15), (a.val, 9), (b.val, 3), (g.val, 0)], [])
  | .fcmpEq d a b g => some (pack 0x3000000 [(d.val, 15), (a.val, 9), (b.val, 3), (g.val, 0)], [])
  | .fcmpLt d a b g => some (pack 0x3200000 [(d.val, 15), (a.val, 9), (b.val, 3), (g.val, 0)], [])
  | .fcmpLe d a b g => some (pack 0x3400000 [(d.val, 15), (a.val, 9), (b.val, 3), (g.val, 0)], [])
  | .fcmpUn d a b g => some (pack 0x3600000 [(d.val, 15), (a.val, 9), (b.val, 3), (g.val, 0)], [])
  | .fcvt d a cv rm sat g => some (pack 0x3800000 [(d.val, 15), (a.val, 9), (cv.code, 6), (rm.code, 4), (sat.toNat, 3), (g.val, 0)], [])
  | .tsread d g => some (pack 0x3a00000 [(d.val, 15), (g.val, 0)], [])
  | .jr a g => some (pack 0x3c00000 [(a.val, 9), (g.val, 0)], [])
  | .ret g => some (pack 0x3e00000 [(g.val, 0)], [])
  | .cmpEq d a b g => some (pack 0x4000000 [(d.val, 15), (a.val, 9), (b.val, 3), (g.val, 0)], [])
  | .cmpNe d a b g => some (pack 0x4200000 [(d.val, 15), (a.val, 9), (b.val, 3), (g.val, 0)], [])
  | .cmpLt d a b g => some (pack 0x4400000 [(d.val, 15), (a.val, 9), (b.val, 3), (g.val, 0)], [])
  | .cmpLe d a b g => some (pack 0x4600000 [(d.val, 15), (a.val, 9), (b.val, 3), (g.val, 0)], [])
  | .cmpLtu d a b g => some (pack 0x4800000 [(d.val, 15), (a.val, 9), (b.val, 3), (g.val, 0)], [])
  | .cmpLeu d a b g => some (pack 0x4a00000 [(d.val, 15), (a.val, 9), (b.val, 3), (g.val, 0)], [])
  | .nop g => some (pack 0x5000000 [(g.val, 0)], [])
  | .halt g => some (pack 0x5200000 [(g.val, 0)], [])
  | .eret g => some (pack 0x5400000 [(g.val, 0)], [])
  | .lbrk g => some (pack 0x5600000 [(g.val, 0)], [])
  | .addi d a imm => some (pack 0x8000000 [(d.val, 15), (a.val, 9), (lowS 9 imm, 0)], extS 9 imm)
  | .andi d a imm => some (pack 0x8200000 [(d.val, 15), (a.val, 9), (lowS 9 imm, 0)], extS 9 imm)
  | .ori d a imm => some (pack 0x8400000 [(d.val, 15), (a.val, 9), (lowS 9 imm, 0)], extS 9 imm)
  | .xori d a imm => some (pack 0x8600000 [(d.val, 15), (a.val, 9), (lowS 9 imm, 0)], extS 9 imm)
  | .li d imm => some (pack 0x8800000 [(d.val, 15), (lowS 9 imm, 0)], extS 9 imm)
  | .lih d imm => some (pack 0x8a00000 [(d.val, 15), (lowS 9 imm, 0)], extS 9 imm)
  | .trap code => some (pack 0x8c00000 [(code.val, 0)], [])
  | .chk a imm => some (pack 0x8e00000 [(a.val, 9), (lowS 9 imm, 0)], extS 9 imm)
  | .sysr d r => some (pack 0x9000000 [(d.val, 15), (r.number % 2 ^ 9, 0)], extU 9 r.number)
  | .sysw a r => some (pack 0x9200000 [(a.val, 9), (r.number % 2 ^ 9, 0)], extU 9 r.number)
  | .loop c len => some (pack 0x9400000 [(c.val, 9), (len % 2 ^ 9, 0)], extU 9 len)
  | .loopi count len => some (pack 0x9600000 [(count.val, 9), (len % 2 ^ 9, 0)], extU 9 len)
  | .cmpiEq d a imm => some (pack 0xa000000 [(d.val, 15), (a.val, 9), (lowS 9 imm, 0)], extS 9 imm)
  | .cmpiNe d a imm => some (pack 0xa200000 [(d.val, 15), (a.val, 9), (lowS 9 imm, 0)], extS 9 imm)
  | .cmpiLt d a imm => some (pack 0xa400000 [(d.val, 15), (a.val, 9), (lowS 9 imm, 0)], extS 9 imm)
  | .cmpiLe d a imm => some (pack 0xa600000 [(d.val, 15), (a.val, 9), (lowS 9 imm, 0)], extS 9 imm)
  | .cmpiLtu d a imm => some (pack 0xa800000 [(d.val, 15), (a.val, 9), (lowS 9 imm, 0)], extS 9 imm)
  | .cmpiLeu d a imm => some (pack 0xaa00000 [(d.val, 15), (a.val, 9), (lowS 9 imm, 0)], extS 9 imm)
  | .br neg p disp => some (pack 0xc000000 [(neg.toNat, 20), (p.val, 17), (lowS 17 disp, 0)], extS 17 disp)
  | .j disp => some (pack 0xc200000 [(lowS 17 disp, 0)], extS 17 disp)
  | .call disp => some (pack 0xc400000 [(lowS 17 disp, 0)], extS 17 disp)
  | _ => none

/-- The syllable and the X payloads of the vector forms (R61). -/
def encodeVector : Instr → Option (Nat × List Nat)
  | .vadd d a b fmt m => some (pack 0x10000000 [(d.val, 16), (a.val, 11), (b.val, 6), (fmt.code, 3), (m.val, 0)], [])
  | .vsub d a b fmt m => some (pack 0x10200000 [(d.val, 16), (a.val, 11), (b.val, 6), (fmt.code, 3), (m.val, 0)], [])
  | .vmul d a b fmt m => some (pack 0x10400000 [(d.val, 16), (a.val, 11), (b.val, 6), (fmt.code, 3), (m.val, 0)], [])
  | .vfma d a b fmt m => some (pack 0x10600000 [(d.val, 16), (a.val, 11), (b.val, 6), (fmt.code, 3), (m.val, 0)], [])
  | .vmax d a b fmt m => some (pack 0x10800000 [(d.val, 16), (a.val, 11), (b.val, 6), (fmt.code, 3), (m.val, 0)], [])
  | .vmin d a b fmt m => some (pack 0x10a00000 [(d.val, 16), (a.val, 11), (b.val, 6), (fmt.code, 3), (m.val, 0)], [])
  | .vabs d a fmt m => some (pack 0x10c00000 [(d.val, 16), (a.val, 11), (fmt.code, 3), (m.val, 0)], [])
  | .vneg d a fmt m => some (pack 0x10e00000 [(d.val, 16), (a.val, 11), (fmt.code, 3), (m.val, 0)], [])
  | .vand d a b fmt m => some (pack 0x11000000 [(d.val, 16), (a.val, 11), (b.val, 6), (fmt.code, 3), (m.val, 0)], [])
  | .vor d a b fmt m => some (pack 0x11200000 [(d.val, 16), (a.val, 11), (b.val, 6), (fmt.code, 3), (m.val, 0)], [])
  | .vxor d a b fmt m => some (pack 0x11400000 [(d.val, 16), (a.val, 11), (b.val, 6), (fmt.code, 3), (m.val, 0)], [])
  | .vshl d a b fmt m => some (pack 0x11600000 [(d.val, 16), (a.val, 11), (b.val, 6), (fmt.code, 3), (m.val, 0)], [])
  | .vshr d a b fmt m => some (pack 0x11800000 [(d.val, 16), (a.val, 11), (b.val, 6), (fmt.code, 3), (m.val, 0)], [])
  | .vsel d a b fmt s => some (pack 0x11a00000 [(d.val, 16), (a.val, 11), (b.val, 6), (fmt.code, 3), (s.val, 0)], [])
  | .vmov d a fmt m => some (pack 0x11c00000 [(d.val, 16), (a.val, 11), (fmt.code, 3), (m.val, 0)], [])
  | .vcvt d a sat rm fmt m => some (pack 0x11e00000 [(d.val, 16), (a.val, 11), (sat.toNat, 8), (rm.code, 6), (fmt.code, 3), (m.val, 0)], [])
  | .vcmpEq d a b fmt m => some (pack 0x12000000 [(d.val, 16), (a.val, 11), (b.val, 6), (fmt.code, 3), (m.val, 0)], [])
  | .vcmpNe d a b fmt m => some (pack 0x12200000 [(d.val, 16), (a.val, 11), (b.val, 6), (fmt.code, 3), (m.val, 0)], [])
  | .vcmpLt d a b fmt m => some (pack 0x12400000 [(d.val, 16), (a.val, 11), (b.val, 6), (fmt.code, 3), (m.val, 0)], [])
  | .vcmpLe d a b fmt m => some (pack 0x12600000 [(d.val, 16), (a.val, 11), (b.val, 6), (fmt.code, 3), (m.val, 0)], [])
  | .vred d a op fmt m => some (pack 0x12800000 [(d.val, 16), (a.val, 11), (op.code, 6), (fmt.code, 3), (m.val, 0)], [])
  | .vredc d a op fmt m => some (pack 0x12a00000 [(d.val, 16), (a.val, 11), (op.code, 6), (fmt.code, 3), (m.val, 0)], [])
  | .vscan d a op fmt m => some (pack 0x12c00000 [(d.val, 16), (a.val, 11), (op.code, 6), (fmt.code, 3), (m.val, 0)], [])
  | .vtrans d a fmt m => some (pack 0x12e00000 [(d.val, 16), (a.val, 11), (fmt.code, 3), (m.val, 0)], [])
  | .vperm d a b fmt m => some (pack 0x13000000 [(d.val, 16), (a.val, 11), (b.val, 6), (fmt.code, 3), (m.val, 0)], [])
  | .vpack d a rm pk fmt m => some (pack 0x13200000 [(d.val, 16), (a.val, 11), (rm.code, 9), (pk.code, 6), (fmt.code, 3), (m.val, 0)], [])
  | .vunpk d a rm pk fmt m => some (pack 0x13400000 [(d.val, 16), (a.val, 11), (rm.code, 9), (pk.code, 6), (fmt.code, 3), (m.val, 0)], [])
  | .vexpd d a fmt m => some (pack 0x13600000 [(d.val, 16), (a.val, 11), (fmt.code, 3), (m.val, 0)], [])
  | .vpush fifoB a fmt => some (pack 0x13800000 [(fifoB.toNat, 16), (a.val, 11), (fmt.code, 3)], [])
  | .mlog d a b fn m => some (pack 0x13a00000 [(d.val, 16), (a.val, 11), (b.val, 6), (fn.code, 3), (m.val, 0)], [])
  | .vbcast d s m => some (pack 0x14000000 [(d.val, 16), (s.val, 5), (m.val, 0)], [])
  | .viota d s m => some (pack 0x14200000 [(d.val, 16), (s.val, 5), (m.val, 0)], [])
  | .vrngCo d s m => some (pack 0x14400000 [(d.val, 16), (s.val, 5), (m.val, 0)], [])
  | .vrngLc d s m => some (pack 0x14400008 [(d.val, 16), (s.val, 5), (m.val, 0)], [])
  | .vcomp d a s m => some (pack 0x14600000 [(d.val, 16), (a.val, 11), (s.val, 5), (m.val, 0)], [])
  | .vshape s => some (pack 0x14800000 [(s.val, 5)], [])
  | .mpop a s m => some (pack 0x14a00000 [(a.val, 11), (s.val, 5), (m.val, 0)], [])
  | _ => none

/-- The syllable and the X payloads of the special forms (R62). -/
def encodeSpecial : Instr → Option (Nat × List Nat)
  | .sfrcp d a k fmt m => some (pack 0x20000000 [(d.val, 19), (a.val, 14), (k.val, 11), (fmt.code, 9), (m.val, 6)], [])
  | .sfrsq d a k fmt m => some (pack 0x21000000 [(d.val, 19), (a.val, 14), (k.val, 11), (fmt.code, 9), (m.val, 6)], [])
  | .sfexp d a k fmt m => some (pack 0x22000000 [(d.val, 19), (a.val, 14), (k.val, 11), (fmt.code, 9), (m.val, 6)], [])
  | .sflog d a k fmt m => some (pack 0x23000000 [(d.val, 19), (a.val, 14), (k.val, 11), (fmt.code, 9), (m.val, 6)], [])
  | .sftanh d a k fmt m => some (pack 0x24000000 [(d.val, 19), (a.val, 14), (k.val, 11), (fmt.code, 9), (m.val, 6)], [])
  | .sfsig d a k fmt m => some (pack 0x25000000 [(d.val, 19), (a.val, 14), (k.val, 11), (fmt.code, 9), (m.val, 6)], [])
  | .sfsin d a k fmt m => some (pack 0x26000000 [(d.val, 19), (a.val, 14), (k.val, 11), (fmt.code, 9), (m.val, 6)], [])
  | .sfcos d a k fmt m => some (pack 0x27000000 [(d.val, 19), (a.val, 14), (k.val, 11), (fmt.code, 9), (m.val, 6)], [])
  | _ => none

/-- The syllable and the X payloads of the memory forms (R65, R67). -/
def encodeMemory : Instr → Option (Nat × List Nat)
  | .ldI8 d b imm => some (pack 0x30000000 [(d.val, 15), (b.val, 9), (lowS 9 imm, 0)], extS 9 imm)
  | .ldU8 d b imm => some (pack 0x30200000 [(d.val, 15), (b.val, 9), (lowS 9 imm, 0)], extS 9 imm)
  | .ldI16 d b imm => some (pack 0x30400000 [(d.val, 15), (b.val, 9), (lowS 9 imm, 0)], extS 9 imm)
  | .ldI32 d b imm => some (pack 0x30600000 [(d.val, 15), (b.val, 9), (lowS 9 imm, 0)], extS 9 imm)
  | .ldI64 d b imm => some (pack 0x30800000 [(d.val, 15), (b.val, 9), (lowS 9 imm, 0)], extS 9 imm)
  | .pref b imm => some (pack 0x30a00000 [(b.val, 9), (lowS 9 imm, 0)], extS 9 imm)
  | .flush b imm => some (pack 0x30c00000 [(b.val, 9), (lowS 9 imm, 0)], extS 9 imm)
  | .ldsI8 d b imm => some (pack 0x31000000 [(d.val, 15), (b.val, 9), (lowS 9 imm, 0)], extS 9 imm)
  | .ldsU8 d b imm => some (pack 0x31200000 [(d.val, 15), (b.val, 9), (lowS 9 imm, 0)], extS 9 imm)
  | .ldsI16 d b imm => some (pack 0x31400000 [(d.val, 15), (b.val, 9), (lowS 9 imm, 0)], extS 9 imm)
  | .ldsI32 d b imm => some (pack 0x31600000 [(d.val, 15), (b.val, 9), (lowS 9 imm, 0)], extS 9 imm)
  | .ldsI64 d b imm => some (pack 0x31800000 [(d.val, 15), (b.val, 9), (lowS 9 imm, 0)], extS 9 imm)
  | .stI8 d b imm => some (pack 0x32000000 [(d.val, 15), (b.val, 9), (lowS 9 imm, 0)], extS 9 imm)
  | .stI16 d b imm => some (pack 0x32200000 [(d.val, 15), (b.val, 9), (lowS 9 imm, 0)], extS 9 imm)
  | .stI32 d b imm => some (pack 0x32400000 [(d.val, 15), (b.val, 9), (lowS 9 imm, 0)], extS 9 imm)
  | .stI64 d b imm => some (pack 0x32600000 [(d.val, 15), (b.val, 9), (lowS 9 imm, 0)], extS 9 imm)
  | .ldv v b m imm => some (pack 0x32800000 [(v.val, 16), (b.val, 10), (m.val, 6), (lowS 6 imm, 0)], extS 6 imm)
  | .stv v b m imm => some (pack 0x32a00000 [(v.val, 16), (b.val, 10), (m.val, 6), (lowS 6 imm, 0)], extS 6 imm)
  | .vgather v b m scaled x => some (pack 0x32c00000 [(v.val, 16), (b.val, 10), (m.val, 6), (scaled.toNat, 5), (x.val, 0)], [])
  | .vscatter v b m scaled x => some (pack 0x32e00000 [(v.val, 16), (b.val, 10), (m.val, 6), (scaled.toNat, 5), (x.val, 0)], [])
  | .amoAddI64 d b imm => some (pack 0x33000000 [(d.val, 15), (b.val, 9), (lowS 9 imm, 0)], extS 9 imm)
  | .amoAndI64 d b imm => some (pack 0x33200000 [(d.val, 15), (b.val, 9), (lowS 9 imm, 0)], extS 9 imm)
  | .amoOrI64 d b imm => some (pack 0x33400000 [(d.val, 15), (b.val, 9), (lowS 9 imm, 0)], extS 9 imm)
  | .amoXorI64 d b imm => some (pack 0x33600000 [(d.val, 15), (b.val, 9), (lowS 9 imm, 0)], extS 9 imm)
  | .amoMinI64 d b imm => some (pack 0x33800000 [(d.val, 15), (b.val, 9), (lowS 9 imm, 0)], extS 9 imm)
  | .amoMaxI64 d b imm => some (pack 0x33a00000 [(d.val, 15), (b.val, 9), (lowS 9 imm, 0)], extS 9 imm)
  | .amoSwapI64 d b imm => some (pack 0x33c00000 [(d.val, 15), (b.val, 9), (lowS 9 imm, 0)], extS 9 imm)
  | .amoCasI64 d b imm => some (pack 0x33e00000 [(d.val, 15), (b.val, 9), (lowS 9 imm, 0)], extS 9 imm)
  | .ldI8Index d b x p => some (pack 0x34000000 [(d.val, 15), (b.val, 9), (x.val, 3), (p.val, 0)], [])
  | .ldU8Index d b x p => some (pack 0x34200000 [(d.val, 15), (b.val, 9), (x.val, 3), (p.val, 0)], [])
  | .ldI16Index d b x p => some (pack 0x34400000 [(d.val, 15), (b.val, 9), (x.val, 3), (p.val, 0)], [])
  | .ldI32Index d b x p => some (pack 0x34600000 [(d.val, 15), (b.val, 9), (x.val, 3), (p.val, 0)], [])
  | .ldI64Index d b x p => some (pack 0x34800000 [(d.val, 15), (b.val, 9), (x.val, 3), (p.val, 0)], [])
  | .prefIndex b x g => some (pack 0x34a00000 [(b.val, 9), (x.val, 3), (g.val, 0)], [])
  | .ldsI8Index d b x p => some (pack 0x35000000 [(d.val, 15), (b.val, 9), (x.val, 3), (p.val, 0)], [])
  | .ldsU8Index d b x p => some (pack 0x35200000 [(d.val, 15), (b.val, 9), (x.val, 3), (p.val, 0)], [])
  | .ldsI16Index d b x p => some (pack 0x35400000 [(d.val, 15), (b.val, 9), (x.val, 3), (p.val, 0)], [])
  | .ldsI32Index d b x p => some (pack 0x35600000 [(d.val, 15), (b.val, 9), (x.val, 3), (p.val, 0)], [])
  | .ldsI64Index d b x p => some (pack 0x35800000 [(d.val, 15), (b.val, 9), (x.val, 3), (p.val, 0)], [])
  | .stI8Index d b x g => some (pack 0x36000000 [(d.val, 15), (b.val, 9), (x.val, 3), (g.val, 0)], [])
  | .stI16Index d b x g => some (pack 0x36200000 [(d.val, 15), (b.val, 9), (x.val, 3), (g.val, 0)], [])
  | .stI32Index d b x g => some (pack 0x36400000 [(d.val, 15), (b.val, 9), (x.val, 3), (g.val, 0)], [])
  | .stI64Index d b x g => some (pack 0x36600000 [(d.val, 15), (b.val, 9), (x.val, 3), (g.val, 0)], [])
  | .amoAddI32 d b imm => some (pack 0x37000000 [(d.val, 15), (b.val, 9), (lowS 9 imm, 0)], extS 9 imm)
  | .amoAndI32 d b imm => some (pack 0x37200000 [(d.val, 15), (b.val, 9), (lowS 9 imm, 0)], extS 9 imm)
  | .amoOrI32 d b imm => some (pack 0x37400000 [(d.val, 15), (b.val, 9), (lowS 9 imm, 0)], extS 9 imm)
  | .amoXorI32 d b imm => some (pack 0x37600000 [(d.val, 15), (b.val, 9), (lowS 9 imm, 0)], extS 9 imm)
  | .amoMinI32 d b imm => some (pack 0x37800000 [(d.val, 15), (b.val, 9), (lowS 9 imm, 0)], extS 9 imm)
  | .amoMaxI32 d b imm => some (pack 0x37a00000 [(d.val, 15), (b.val, 9), (lowS 9 imm, 0)], extS 9 imm)
  | .amoSwapI32 d b imm => some (pack 0x37c00000 [(d.val, 15), (b.val, 9), (lowS 9 imm, 0)], extS 9 imm)
  | .amoCasI32 d b imm => some (pack 0x37e00000 [(d.val, 15), (b.val, 9), (lowS 9 imm, 0)], extS 9 imm)
  | .sldI8 d bank off => some (pack 0x38000000 [(d.val, 15), (bank.val, 9), (off % 2 ^ 9, 0)], extU 9 off)
  | .sldU8 d bank off => some (pack 0x38200000 [(d.val, 15), (bank.val, 9), (off % 2 ^ 9, 0)], extU 9 off)
  | .sldI16 d bank off => some (pack 0x38400000 [(d.val, 15), (bank.val, 9), (off % 2 ^ 9, 0)], extU 9 off)
  | .sldI32 d bank off => some (pack 0x38600000 [(d.val, 15), (bank.val, 9), (off % 2 ^ 9, 0)], extU 9 off)
  | .sldI64 d bank off => some (pack 0x38800000 [(d.val, 15), (bank.val, 9), (off % 2 ^ 9, 0)], extU 9 off)
  | .sstI8 d bank off => some (pack 0x39000000 [(d.val, 15), (bank.val, 9), (off % 2 ^ 9, 0)], extU 9 off)
  | .sstI16 d bank off => some (pack 0x39200000 [(d.val, 15), (bank.val, 9), (off % 2 ^ 9, 0)], extU 9 off)
  | .sstI32 d bank off => some (pack 0x39400000 [(d.val, 15), (bank.val, 9), (off % 2 ^ 9, 0)], extU 9 off)
  | .sstI64 d bank off => some (pack 0x39600000 [(d.val, 15), (bank.val, 9), (off % 2 ^ 9, 0)], extU 9 off)
  | .sldv v bank off => some (pack 0x3a000000 [(v.val, 15), (bank.val, 9), (off % 2 ^ 9, 0)], extU 9 off)
  | .sstv v bank off => some (pack 0x3a200000 [(v.val, 15), (bank.val, 9), (off % 2 ^ 9, 0)], extU 9 off)
  | .sldt v bank off => some (pack 0x3a400000 [(v.val, 15), (bank.val, 9), (off % 2 ^ 9, 0)], extU 9 off)
  | .slds e bank off => some (pack 0x3a600000 [(e.val, 15), (bank.val, 9), (off % 2 ^ 9, 0)], extU 9 off)
  | .sldI8Regoff d bank x off => some (pack 0x3c000000 [(d.val, 15), (bank.val, 9), (x.val, 3), (off % 2 ^ 3, 0)], extU 3 off)
  | .sldU8Regoff d bank x off => some (pack 0x3c200000 [(d.val, 15), (bank.val, 9), (x.val, 3), (off % 2 ^ 3, 0)], extU 3 off)
  | .sldI16Regoff d bank x off => some (pack 0x3c400000 [(d.val, 15), (bank.val, 9), (x.val, 3), (off % 2 ^ 3, 0)], extU 3 off)
  | .sldI32Regoff d bank x off => some (pack 0x3c600000 [(d.val, 15), (bank.val, 9), (x.val, 3), (off % 2 ^ 3, 0)], extU 3 off)
  | .sldI64Regoff d bank x off => some (pack 0x3c800000 [(d.val, 15), (bank.val, 9), (x.val, 3), (off % 2 ^ 3, 0)], extU 3 off)
  | .sstI8Regoff d bank x off => some (pack 0x3d000000 [(d.val, 15), (bank.val, 9), (x.val, 3), (off % 2 ^ 3, 0)], extU 3 off)
  | .sstI16Regoff d bank x off => some (pack 0x3d200000 [(d.val, 15), (bank.val, 9), (x.val, 3), (off % 2 ^ 3, 0)], extU 3 off)
  | .sstI32Regoff d bank x off => some (pack 0x3d400000 [(d.val, 15), (bank.val, 9), (x.val, 3), (off % 2 ^ 3, 0)], extU 3 off)
  | .sstI64Regoff d bank x off => some (pack 0x3d600000 [(d.val, 15), (bank.val, 9), (x.val, 3), (off % 2 ^ 3, 0)], extU 3 off)
  | .sldvRegoff v bank x off => some (pack 0x3e000000 [(v.val, 15), (bank.val, 9), (x.val, 3), (off % 2 ^ 3, 0)], extU 3 off)
  | .sstvRegoff v bank x off => some (pack 0x3e200000 [(v.val, 15), (bank.val, 9), (x.val, 3), (off % 2 ^ 3, 0)], extU 3 off)
  | .sldtRegoff v bank x off => some (pack 0x3e400000 [(v.val, 15), (bank.val, 9), (x.val, 3), (off % 2 ^ 3, 0)], extU 3 off)
  | .sldsRegoff e bank x off => some (pack 0x3e600000 [(e.val, 15), (bank.val, 9), (x.val, 3), (off % 2 ^ 3, 0)], extU 3 off)
  | _ => none

/-- The syllable and the X payloads of the engine forms (R70). -/
def encodeEngine : Instr → Option (Nat × List Nat)
  | .cpy d s g => some (pack 0x40000000 [(d.val, 15), (s.val, 9), (g.val, 0)], [])
  | .cegeo a b i g => some (pack 0x40200000 [(a.val, 15), (b.val, 9), (i.val, 4), (g.val, 0)], [])
  | .fapar a b n g => some (pack 0x40400000 [(a.val, 15), (b.val, 9), (n.val, 3), (g.val, 0)], [])
  | .facall beats routine fmt => some (pack 0x40600000 [(beats.val, 12), (routine.val, 4), (fmt.code, 0)], [])
  | .fawait g => some (pack 0x40800000 [(g.val, 0)], [])
  | .fastat d g => some (pack 0x40a00000 [(d.val, 15), (g.val, 0)], [])
  | .fafmt sub fmt g => some (pack 0x40c00000 [(sub.toNat, 7), (fmt.code, 3), (g.val, 0)], [])
  | .fampw a t g => some (pack 0x40e00000 [(a.val, 15), (t.val, 9), (g.val, 0)], [])
  | .binit t n g => some (pack 0x41000000 [(t.val, 15), (n.val, 9), (g.val, 0)], [])
  | .bexp t b g => some (pack 0x41200000 [(t.val, 15), (b.val, 9), (g.val, 0)], [])
  | .barv t g => some (pack 0x41400000 [(t.val, 15), (g.val, 0)], [])
  | .btest d t g => some (pack 0x41600000 [(d.val, 15), (t.val, 9), (g.val, 0)], [])
  | .bwait t q g => some (pack 0x41800000 [(t.val, 15), (q.toNat, 3), (g.val, 0)], [])
  | .bankgive t m c g => some (pack 0x41a00000 [(t.val, 15), (m.val, 9), (c.val, 3), (g.val, 0)], [])
  | .spawn t e blk g => some (pack 0x42000000 [(t.val, 15), (e.val, 9), (blk.val, 6), (g.val, 0)], [])
  | .spawnJoin t g => some (pack 0x42000008 [(t.val, 15), (g.val, 0)], [])
  | .task r q g => some (pack 0x42200000 [(r.val, 15), (q.val, 9), (g.val, 0)], [])
  | .tdep h n g => some (pack 0x42400000 [(h.val, 15), (n.val, 3), (g.val, 0)], [])
  | .gang n => some (pack 0x42600000 [(n.val, 15)], [])
  | .gend => some (pack 0x42800000 [], [])
  | .tswait s g => some (pack 0x42a00000 [(s.val, 15), (g.val, 0)], [])
  | .smap v w g => some (pack 0x43000000 [(v.val, 15), (w.val, 9), (g.val, 0)], [])
  | .sunmap t v g => some (pack 0x43200000 [(t.val, 15), (v.val, 9), (g.val, 0)], [])
  | .swb t v g => some (pack 0x43400000 [(t.val, 15), (v.val, 9), (g.val, 0)], [])
  | .preq a t g => some (pack 0x43600000 [(a.val, 15), (t.val, 9), (g.val, 0)], [])
  | .reloc d s g => some (pack 0x43800000 [(d.val, 15), (s.val, 9), (g.val, 0)], [])
  | .msweep b len g => some (pack 0x43a00000 [(b.val, 15), (len.val, 9), (g.val, 0)], [])
  | .rsgo a c g => some (pack 0x43c00000 [(a.val, 15), (c.val, 9), (g.val, 0)], [])
  | .rsprog d a g => some (pack 0x43e00000 [(d.val, 15), (a.val, 9), (g.val, 0)], [])
  | .coll a c g => some (pack 0x44000000 [(a.val, 15), (c.val, 9), (g.val, 0)], [])
  | .pcnt d t g => some (pack 0x44200000 [(d.val, 15), (t.val, 9), (g.val, 0)], [])
  | .pwait t k g => some (pack 0x44400000 [(t.val, 15), (k.val, 3), (g.val, 0)], [])
  | .pcancel t n g => some (pack 0x44600000 [(t.val, 15), (n.val, 9), (g.val, 0)], [])
  | .fenceEng g => some (pack 0x44800000 [(g.val, 0)], [])
  | .fenceSys g => some (pack 0x44800008 [(g.val, 0)], [])
  | .tlbinvAll g => some (pack 0x44a00000 [(g.val, 0)], [])
  | .tlbinvVa a len g => some (pack 0x44a00008 [(a.val, 15), (len.val, 9), (g.val, 0)], [])
  | .tlbinvAs a g => some (pack 0x44a00010 [(a.val, 15), (g.val, 0)], [])
  | _ => none

/-- The syllable and the X payloads of an instruction; an event has none. -/
def encodeSyl (i : Instr) : Option (Nat × List Nat) :=
  (((encodeScalar i).orElse fun _ => encodeVector i).orElse fun _ => encodeSpecial i).orElse fun _ =>
    (encodeMemory i).orElse fun _ => encodeEngine i

/-- The words of an instruction: its syllable and its X syllables, without the L bit. -/
def encode (i : Instr) : List Nat :=
  match encodeSyl i with
  | some (w, xs) => w :: xs.map fun x => 5 * 2 ^ 28 + x
  | none => []

end Sys2Proof
end

