-- ==== Sys2Proof/Machine/State.lean ====
section
/-! DEFINITION. The state of one TN6 module: contexts, function arrays, memory with its line data, engines, the
hardware task scheduler, links and management, as plain data. Sparse tables are lists of (key, value) with rising
keys and no default entry. -/

namespace Sys2Proof.Machine

/-- Why a step stops for good. -/
inductive Fault where
  /-- A page-table read, a save area or a record lies at a physical address that R150 reserves: no memory answers
  there. Raised by the walk and by the save area. Safe: the machine stops where the manual gives no content. -/
  | reservedAddress
  /-- A routine whose function is a microprogram that FAMPW installed starts: its image is opaque, and the manual gives
  its effect nowhere (R305). Raised by FA_ROUTINE_START. Safe. -/
  | opaqueMicroprogram
  deriving DecidableEq, Repr

/-- Why an instruction has no meaning here. -/
inductive Refusal where
  /-- Raised by the dispatch for an instruction that has no meaning yet. Safe. -/
  | notModelled (mnemonic : String)
  deriving DecidableEq, Repr

/-- A sparse table. -/
abbrev Table (α : Type) := List (Nat × α)

/-! Contexts. -/

/-- The registers of a context (R54, R59, R377). -/
structure Regs where
  s : Vector Word 64
  /-- Poison bit of s_i at bit i (R278). -/
  sp : BitVec 64
  p : BitVec 8
  v : Vector VecVal 32
  m : Vector MaskVal 16
  e : Vector ScaleVal 16
  vshp : Word
  deriving DecidableEq, Repr

/-- One register write of one syllable (R213). `sel` names the parts written: bytes of a vector, bits of a mask
(R214, R225); none is the whole register. -/
inductive RegWrite where
  | scalar (d : SReg) (v : Word) (poison : Bool)
  | pred (d : PReg) (v : Bool)
  | vec (d : VReg) (v : VecVal) (sel : Option MaskVal)
  /-- VPACK writes single bits (R371): those of `sel`. -/
  | bits (d : VReg) (v sel : VecVal)
  | mask (d : MReg) (v : MaskVal) (sel : Option MaskVal)
  | scale (d : EReg) (v : ScaleVal)
  | shape (v : Word)
  deriving DecidableEq, Repr

/-- A result in flight: the cycle at which it becomes visible, the slot, the cycle its bundle issued (R71, R73). -/
structure Flight where
  due : Nat
  slot : Nat
  born : Nat
  w : RegWrite
  deriving DecidableEq, Repr

/-- An outstanding M0 access: the registers it holds until cycle `due` (R71). -/
structure Outstanding where
  due : Nat
  writes : List RegWrite
  /-- The base register that an access to a movable page holds (R237). -/
  base : Option SReg
  /-- A poisoned load under MEMCTL.STRICT (R172). -/
  ecc : Bool
  /-- The registers are written already; the entry stays for its strict-ECC trap. -/
  written : Bool
  deriving DecidableEq, Repr

/-- A loop stack entry (R82, R84). -/
structure LoopEntry where
  start : Word
  stop : Word
  remaining : Word
  deriving DecidableEq, Repr

/-- What the target of a taken transfer does when it is fetched (R86, R217). -/
inductive TransferKind where
  /-- BR, J, JR, CHK pop the loops that do not hold the target. -/
  | pops
  /-- CALL and RET leave the loop stack. -/
  | plain
  /-- ERET restores the context. -/
  | eret
  deriving DecidableEq, Repr

/-- A control transfer whose delay bundles still run (R51, R215). -/
structure Delay where
  left : Nat
  taken : Bool
  target : Word
  kind : TransferKind
  deriving DecidableEq, Repr

/-- What an engine wait waits for (R87). -/
inductive Wait where
  /-- BWAIT: the barrier at a physical address, and q (R208). -/
  | barrier (addr : Nat) (q : Bool)
  /-- FAWAIT (R137). -/
  | fa
  /-- PWAIT: the counter byte at a physical address, and the planes (R271). -/
  | planes (addr : Nat) (k : Nat)
  /-- TSWAIT (R100). -/
  | timeStep (n : Word)
  /-- SPAWN.JOIN: the joined work (R92). -/
  | join (work : Nat)
  /-- A store-class access at a page that is not resident: an address in it (R167). -/
  | page (va : Word)
  deriving DecidableEq, Repr

/-- The states of a context (R81). -/
inductive Status where
  | idle
  | ready
  | running
  | waiting (w : Wait)
  deriving DecidableEq, Repr

/-- How an engine wait ended: its syllable completes, or traps (R208, R167). -/
inductive WaitEnd where
  | completes
  | overflow
  | refused
  deriving DecidableEq, Repr

/-- A bundle in an engine wait: its syllables by slot, its length in syllables, the operands read at its first issue
and the cycle of that (R381), what its SYSR and TSREAD read then, by slot (R353, R359), the wait it is in, and the
waits of the bundle that ended before. -/
structure Held where
  first : Nat
  syls : List (Nat × Instr)
  len : Nat
  regs : Regs
  reads : List (Nat × Word)
  wait : Wait
  ended : List Wait
  deriving DecidableEq, Repr

/-- A pending write of EFR and the bundles it still waits (R112). -/
structure EfrPending where
  val : Word
  wait : Nat
  deriving DecidableEq, Repr

/-- A mapped scratchpad region: virtual base, linear scratchpad position, length, dirty lines, stale mark (R154,
R345, R170). -/
structure MapRegion where
  base : Word
  start : Nat
  len : Nat
  dirty : List Nat
  stale : Bool
  deriving DecidableEq, Repr

/-- A pending BANKGIVE pass (R285): banks, the target work if any, the barrier and its phase parity. -/
structure Pass where
  issuer : Nat
  banks : BitVec 64
  target : Option Nat
  barrier : Nat
  phase : Bool
  deriving DecidableEq, Repr

/-- A tile descriptor as a routine's call read it (R138): operand 0 is HA, 1 is HB, 2 the scale tile, 3 that of an
FWDI's HA. -/
structure Descriptor where
  operand : Nat
  word : BitVec 256
  deriving DecidableEq, Repr

/-- Bytes of a row of an operand; none where a line is poisoned (R140). -/
abbrev FaRow := List (Option Byte)

/-- What R148 asks of a withdrawn call when it starts: whether its work has been resumed on another core, and the loads of
the array's halves at its save, so that a load in the meantime shows. -/
structure Reissue where
  moved : Bool
  loads : Nat
  deriving DecidableEq, Repr

/-- A call of the function array: its snapshot at issue (R134, R135, R137), the address space, mode and timestamp of its
global reads (R187), and its progress: vectors completed, rows read for the next one, poison met, whether a lead's
stream has begun (R141). -/
structure FaCall where
  loc : Nat
  work : Nat
  routine : Nat
  fmt : FaFmt
  /-- The FAFMT format and SUB in effect at the call (R303). -/
  dyn : FaFmt
  dynSub : Bool
  beats : Nat
  params : Vector (BitVec 128) 8
  fatab : Word
  efr : Word
  descs : List Descriptor
  /-- What has become of the array meanwhile, where the call is issued again after a resume; one that failed a check ends
  with this status (R148). -/
  reissued : Option Reissue
  dead : Option (BitVec 8)
  root : Word
  user : Bool
  pts : Word
  vec : Nat
  rows : List FaRow
  poison : Bool
  streaming : Bool
  deriving DecidableEq, Repr

/-- A copy command that pre-emption has withdrawn (R220, R228): its place in CSEQ order, ends and geometry as latched,
sequence number, and the barrier with its BTEST word after the re-credit. -/
structure Withdrawn where
  order : Nat
  dst : Word
  src : Word
  g : Vector Word 8
  seq : BitVec 16
  snapshot : Option (Nat × Word)
  deriving DecidableEq, Repr

/-- A context: its registers and control state (R82, R91, R225). -/
structure Ctx where
  status : Status
  /-- The bundle of an engine wait, and how the wait ended once it has. -/
  held : Option Held
  woken : Option WaitEnd
  /-- Privileged mode (R216). -/
  priv : Bool
  pc : Word
  delay : Option Delay
  /-- Innermost first (R82). -/
  loops : List LoopEntry
  regs : Regs
  /-- Shadows of a0 to a7 and g0 to g7 (R134, R202). -/
  aShadow : Vector (BitVec 128) 8
  gShadow : Vector Word 8
  efr : Word
  efrPend : List EfrPending
  srkey : Word
  srorg : Word
  fatab : Word
  memctl : Word
  ptroot : Word
  cseq : BitVec 16
  ceerr : Word
  svcur : Word
  tslate : BitVec 32
  dsdrop : BitVec 32
  wid : BitVec 16
  gidx : Word
  lcnt : BitVec 28
  fampst : Word
  /-- The FAFMT dynamic format and its SUB bit (R303). -/
  faFmt : FaFmt
  faSub : Bool
  /-- The FA status word without BUSY, GRIDV and STATV (R147). -/
  fastat : Word
  /-- Logical timestamp (R175). -/
  pts : Word
  banks : BitVec 64
  regions : List MapRegion
  inflight : List Flight
  m0 : List Outstanding
  /-- Cycles at which strict-ECC traps of M1 loads fall due (R172). -/
  ecc : List Nat
  /-- The same while a handler runs, as offsets (R214). -/
  eccLater : List Nat
  m0Later : List Outstanding
  /-- SPAWN has placed work here that is not Ready before this cycle (R91). -/
  startAt : Option Nat
  /-- No bundle has issued since the context started (R93). -/
  fresh : Bool
  /-- Task and work identity (R91, R92), and the work last spawned on each context of the cluster. -/
  task : Nat
  work : Nat
  spawned : Table Nat
  preempt : Bool
  /-- Latch records of a resumed context, `due` their offset, until its first bundle issues (R214). -/
  latched : List Flight
  /-- A pre-emption request may take effect here (R219). -/
  atPoint : Bool
  /-- The FA call that a resumed context re-issues (R148). -/
  faCall : Option FaCall
  /-- The context has met its GANG and its gang is formed (R93). -/
  ganged : Bool
  /-- The context waits at GANG (R87). -/
  atGang : Bool
  /-- A pre-emption has taken effect: issue has stopped, and the context's engines settle before the save into this
  area of the pool (R219). -/
  stopping : Option Nat
  /-- Copies withdrawn so far (R220). -/
  withdrawn : List Withdrawn
  /-- Offsets of strict-ECC traps of a resumed context, counted from its first bundle (R172, R214). -/
  eccLatched : List Nat
  /-- The selector has chosen the context, or a hold keeps its bundle, and no bundle has issued since: a pre-emption
  takes effect at once (R219). -/
  unissued : Bool
  /-- The first cycle in which its next bundle may issue (R100). -/
  nextAt : Nat
  /-- The cycle of its last bundle (R89). -/
  lastAt : Nat
  /-- The first cycle in which it has its next turn to issue (R87): it has had those before. -/
  turn : Nat
  deriving DecidableEq, Repr

/-- Registers after context creation (R91, R325, R377). -/
def Regs.reset : Regs where
  s := Vector.replicate 64 0
  sp := 0
  p := 1
  v := Vector.replicate 32 0
  m := Vector.replicate 16 0
  e := Vector.replicate 16 0
  vshp := 0x3F1F#64

/-- An idle context with the values of device reset (R8, R81, R111). PC, WID, pts and mode: log entry 3. -/
def Ctx.reset : Ctx where
  status := .idle
  held := none
  woken := none
  priv := false
  pc := 0
  delay := none
  loops := []
  regs := Regs.reset
  aShadow := Vector.replicate 8 0
  gShadow := Vector.replicate 8 0
  efr := 0x5#64
  efrPend := []
  srkey := 0
  srorg := 0
  fatab := 0
  memctl := 0
  ptroot := 0
  cseq := 0
  ceerr := 0
  svcur := 0
  tslate := 0
  dsdrop := 0
  wid := 0
  gidx := 0
  lcnt := 0
  fampst := 0
  faFmt := .dynamic
  faSub := false
  fastat := 0
  pts := 0
  banks := 0
  regions := []
  inflight := []
  m0 := []
  ecc := []
  eccLater := []
  m0Later := []
  startAt := none
  fresh := true
  task := 0
  work := 0
  spawned := []
  preempt := false
  latched := []
  atPoint := false
  faCall := none
  ganged := false
  atGang := false
  stopping := none
  withdrawn := []
  eccLatched := []
  unissued := false
  nextAt := 0
  lastAt := 0
  turn := 0

/-! The function array of a core. -/

/-- A row head: knots and reciprocal widths as binary32, the outside-grid rule (0 CLAMP, 1 EXTEND, 2 ZERO)
(R127, R129). A row without intervals has no knots. -/
structure RowHead where
  g : Nat
  knots : List (BitVec 32)
  widths : List (BitVec 32)
  rule : Nat
  deriving DecidableEq, Repr

/-- A cell: coefficients as stored, weight or decoded lane weights and their scales, accumulators (R127, R145). -/
structure FaCell where
  coef : List (BitVec 16)
  weights : List (BitVec 32)
  scales : List (BitVec 8)
  acc : List (BitVec 32)
  accA : BitVec 32
  deriving DecidableEq, Repr

/-- How the stationary state was loaded (R142): form (spline or linear), degree, entries, lanes, K', N', training
split, weights given, format, whether the row scale applies to the weights (R132). -/
structure StatInfo where
  spline : Bool
  d : Nat
  entries : Nat
  lanes : Nat
  kp : Nat
  np : Nat
  train : Bool
  wgt : Bool
  fmt : FaFmt
  sub : Bool
  rowScaled : Bool
  deriving DecidableEq, Repr

/-- Who feeds an operand FIFO (R139): the operand fetcher for KIND 0 and 1, VPUSH for KIND 2, the lead's stream for KIND 3. -/
inductive FifoSource where
  | fetcher
  | push
  | lead
  deriving DecidableEq, Repr

/-- An entry of an operand FIFO: the work that pushed it (R374), its 256 bytes, which of them come from poisoned lines (R140,
R141), and who has put it there (R139). -/
structure FifoEntry where
  work : Nat
  data : BitVec 2048
  poison : BitVec 256
  source : FifoSource
  deriving DecidableEq, Repr

/-- The function array of one core with its operand FIFOs (R127, R128, R137, R139). Cell (i, j) has key
128 * i + j; the owner of a half is the work that loaded it, none while its valid bit is clear. -/
structure FaUnit where
  gridOwner : Option Nat
  heads : List RowHead
  statOwner : Option Nat
  info : Option StatInfo
  cells : Table FaCell
  rowScales : List (BitVec 8)
  running : Option FaCall
  started : Bool
  /-- The cycle of the running routine's first beat (R137). -/
  firstBeat : Nat
  queued : Option FaCall
  /-- Loads of a half so far (R148). -/
  loads : Nat
  fifoA : List FifoEntry
  fifoB : List FifoEntry
  deriving DecidableEq, Repr

def FaUnit.reset : FaUnit where
  gridOwner := none
  heads := []
  statOwner := none
  info := none
  cells := []
  rowScales := []
  running := none
  started := false
  firstBeat := 0
  queued := none
  loads := 0
  fifoA := []
  fifoB := []

/-- A core: the context that holds it, the context that left it last, the first cycle it may issue in (R89), the cycle
in which the selector last chose (R88), the cycle at which each slot is free (R72). -/
structure Core where
  current : Option (Fin 4)
  last : Fin 4
  notBefore : Nat
  picked : Option Nat
  slotFree : Vector Nat 9
  fa : FaUnit
  deriving DecidableEq, Repr

def Core.reset : Core where
  current := none
  last := 0
  notBefore := 0
  picked := none
  slotFree := Vector.replicate 9 0
  fa := FaUnit.reset

/-- A cluster: SVPOOL BASE, the areas of the pool in use (R216, R224), the pending passes (R285). -/
structure Cluster where
  svbase : Word
  areas : BitVec 32
  passes : List Pass
  deriving DecidableEq, Repr

def Cluster.reset : Cluster where
  svbase := 0
  areas := 0
  passes := []

/-! Memory. -/

/-- What a 64-byte line carries beside its bytes: poison (R172), moved-to mark (R230), expected read count (R158),
the writer identity of the phase (R181), the home timestamps (R175). -/
structure LineData where
  poison : Bool
  mark : Bool
  readCount : Nat
  wid : BitVec 16
  wts : Word
  rts : Word
  deriving DecidableEq, Repr

def LineData.clear : LineData where
  poison := false
  mark := false
  readCount := 0
  wid := 0
  wts := 0
  rts := 0

/-- A line in an L1: its value, its lease, the cycle of its fill, the stamp of its row (R159, R175, R176), whether a
PREF has filled it and no load has used it, so that no load takes its value (R332), and whether the L1 holds it exclusive,
after a store of its own, until the home serves another agent (R175). -/
structure L1Copy where
  core : Nat
  line : Nat
  data : BitVec 512
  poison : Bool
  wts : Word
  rts : Word
  filled : Nat
  stamp : Nat
  pref : Bool
  excl : Bool
  /-- The core has stored to the line and the L1 has not written it back (R156, R314). -/
  dirty : Bool
  deriving DecidableEq, Repr

/-- A line that the L2 slice of its tower holds, whether it is pinned there (R156, R157), whether it is to be written
back to memory (R314), and the stamp of its row at its fill or its last write (R159). The current value of a line is kept in
one place, the memory of the state. -/
structure L2Line where
  line : Nat
  pinned : Bool
  dirty : Bool
  stamp : Nat
  deriving DecidableEq, Repr

/-- A scratchpad line as it stood before the writes that a core port has made in this cycle (R152). -/
structure EarlyLine where
  line : Nat
  data : BitVec 512
  poison : Bool
  deriving DecidableEq, Repr

/-- A scratchpad line that the engine port has written in this cycle (R152): the line and its poison without those writes,
which the core ports see, the bits that the engines have written, and what they have made of the poison. -/
structure LateLine where
  line : Nat
  data : BitVec 512
  poison : Bool
  written : BitVec 512
  effect : Option Bool
  deriving DecidableEq, Repr

/-- The place of a classified error (R24): kind, cluster over all towers, bank, which gives the die, parity group of a bus
fault, word of a cell fault. -/
structure ErrorPlace where
  kind : Nat
  cluster : Nat
  bank : Nat
  group : Nat
  word : Nat
  deriving DecidableEq, Repr

/-- A fault in the stacked layers that the next read of a line meets (R21, R22). -/
inductive CellFault where
  | busRetry (group : Nat)
  | busFail (group : Nat)
  | cellSingle (word : Nat)
  | cellDouble (word : Nat)
  deriving DecidableEq, Repr

/-! Engine jobs. -/

/-- A region of a footprint (R199, R200): address kind and space (a cluster, or a PTROOT), first byte, length. -/
structure FootRegion where
  scratch : Bool
  space : Nat
  base : Nat
  len : Nat
  write : Bool
  deriving DecidableEq, Repr

/-- Where a job reports completion (R202, R242): a barrier at a physical address, or a dependence counter. -/
inductive Completion where
  | barrier (addr : Nat)
  | counter (handle : Nat)
  | none
  deriving DecidableEq, Repr

/-- A destination tile of a collective on this module (R268, R269, R271): headers (contributor, exponent, special),
planes (contributor, plane, bits), whole-value contributions, planes applied, FIN, CAN; whether a PWAIT or PCNT has shown FIN
and a PWAIT has acquired the final tile, and whether another agent has written to it before that, or to its source, so that
its contents are undefined (R11, R274). -/
structure CollTile where
  headers : List (Nat × Int × Bool)
  planes : List (Nat × Nat × Nat)
  wholes : List (Nat × List (BitVec 32))
  k : Nat
  fin : Bool
  can : Bool
  shown : Bool
  acquired : Bool
  spoiled : Bool
  deriving DecidableEq, Repr

/-- A store has reached a destination tile of a collective, or the source of one, that the rules forbid to change: what the
tile holds is undefined (R11, R274). -/
structure Breach where
  job : Nat
  tile : Nat
  /-- The store has reached the tile itself, not its source. -/
  here : Bool
  deriving DecidableEq, Repr

/-- Memory as it stood when a job began to read its sources. The contents of data whose source has changed since are
undefined (R11, R245, R267). -/
structure Before where
  mem : List Host.Cell
  lines : Table LineData
  deriving DecidableEq, Repr

/-- Memory as a reshard job found it that has stopped or been reset before its last block, for the job that resumes its block
in the same address space (R11, R244, R245). -/
structure ShardBefore where
  root : Word
  block : Word
  before : Before
  deriving DecidableEq, Repr

/-- A collective in progress: its record (R266), group table and local destination tiles, and whether its source has been
read. -/
structure Coll where
  version : Nat
  op : Nat
  plane : Bool
  fmt : Nat
  cid : Nat
  members : Nat
  rank : Nat
  tileCount : Nat
  src : Word
  dst : Word
  cnt : Nat
  group : List Nat
  whole : Bool
  result : Nat
  drops : Nat
  tiles : List CollTile
  cancels : List (Nat × Nat)
  told : Bool
  read : Bool
  deriving DecidableEq, Repr

/-- A reshard block as a job reads it (R242): both records with their base tables, the progress record. -/
structure ShardPlan where
  src : Nat
  dst : Nat
  sb : List Nat
  db : List Nat
  prog : Nat
  before : Before
  deriving DecidableEq, Repr

/-- What a reshard job writes into its progress record, over the word `old` of it (R243). -/
structure ShardEnd where
  old : Nat
  state : Nat
  status : Nat
  cursor : Nat
  bytes : Nat
  chk : Nat
  deriving DecidableEq, Repr

/-- What an engine job does (R204, R231, R345, R333, R305, R354, R356, R242, R265). -/
inductive JobKind where
  | copy (dst src : Word) (g : Vector Word 8)
  | reloc (dst src : Word) (len gen : Nat)
  | msweep (base : Word) (len : Nat)
  | smap (va : Word) (start len : Nat)
  | swb (va : Word) (unmap : Bool)
  | preq (va : Word)
  | fampw (image : Word)
  | task (record : Word) (queue slot : Nat)
  | tdep (handle n : Nat)
  /-- RSGO: its block, the live CURSOR and BYTES, and what it read at its start, once it runs. -/
  | reshard (block : Word) (cursor bytes : Nat) (plan : Option ShardPlan)
  | coll (record : Word) (c : Option Coll)
  deriving DecidableEq, Repr

/-- An engine job in flight (R187): identity, issuing context and its work, address space and mode, writer identity,
timestamp, sequence number, footprint, completion, progress in bytes, the page request it waits for. -/
structure Job where
  id : Nat
  kind : JobKind
  loc : Nat
  work : Nat
  task : Nat
  root : Word
  user : Bool
  wid : BitVec 16
  pts : Word
  seq : BitVec 16
  domain : Nat
  foot : List FootRegion
  completion : Completion
  started : Bool
  pos : Nat
  failed : Bool
  paused : Bool
  request : Option Nat
  /-- Its last page request was refused (R167). -/
  refused : Bool
  /-- Portions written, and source lines read with their poison (R204, R205, R294). -/
  done : List Nat
  src : List (Nat × Nat × Bool)
  /-- The quiesce window of R220, as the cycle at which it ends. -/
  quiesce : Option Nat
  /-- A reshard job that ends with this progress record, whose page it waits for (R167, R245). -/
  ending : Option ShardEnd
  /-- The bank set of the work that issued a COLL, once that work has ended (R274). -/
  ended : Option (BitVec 64)
  /-- Tiles of a COLL that has not started whose data a store has made undefined (R11, R274). -/
  stale : List Nat
  deriving DecidableEq, Repr

/-- A page request at a fault service core (R167): the page, its address space, the home module, who waits. -/
structure PageRequest where
  id : Nat
  va : Word
  root : Word
  home : Nat
  job : Option Nat
  loc : Option Nat
  deriving DecidableEq, Repr

/-! The hardware task scheduler. -/

/-- A target of a placement map (R194): place, bank set, WID. -/
abbrev Target := Nat × BitVec 64 × BitVec 16

/-- A record appended to a queue (R192, R193): its slot, task and targets, the cycle since which it has been ready and
the levels it has risen since (R198), the timestamp of its submitter (R355). -/
structure QEntry where
  slot : Nat
  record : BitVec 1024
  task : Nat
  targets : List Target
  readySince : Option Nat
  aged : Nat
  pts : Word
  deriving DecidableEq, Repr

/-- A queue (R191). -/
structure Queue where
  en : Bool
  level : Fin 4
  entries : List QEntry
  deriving DecidableEq, Repr

def Queue.reset : Queue := { en := false, level := 0, entries := [] }

/-- An appended task (R195, R199): handle, queue and slot, tower, NOTIFY, footprint, whether started, live work, whether it
has ended under R216. -/
structure TaskInfo where
  id : Nat
  tower : Nat
  handle : Nat
  queue : Nat
  slot : Nat
  notify : Option Nat
  domain : Nat
  foot : List FootRegion
  started : Bool
  live : List Nat
  dead : Bool
  deriving DecidableEq, Repr

/-- A Saved instance (R81, R221, R223): its work and task, its area, place and banks, and what the area does not
hold. -/
structure Saved where
  work : Nat
  task : Nat
  area : Nat
  loc : Nat
  root : Word
  banks : BitVec 64
  since : Nat
  aged : Nat
  regions : List MapRegion
  spawned : Table Nat
  ecc : List Nat
  eccLater : List Nat
  m0 : List Outstanding
  m0Later : List Outstanding
  fastat : Word
  gidx : Word
  ganged : Bool
  fresh : Bool
  /-- For its withdrawn FA call (R148). -/
  reissue : Reissue
  deriving DecidableEq, Repr

/-! Links and management. -/

/-- A Chotis link: the fields of its status word (R255), whether it trains (R256), the next sequence expected, failed
replays, and the cycles of its retrainings (R254); of its sender the next sequence and the flits in the replay buffer; the
one-way latency measured at training, in ns (R257); the last ACK received and the NAKs that named it (R254). -/
structure Link where
  up : Bool
  training : Bool
  lost : Bool
  align : Bool
  plane : Bool
  ver : Byte
  retry : BitVec 16
  partner : BitVec 12
  nextSeq : BitVec 12
  naking : Bool
  fails : Nat
  retrains : List Nat
  sendSeq : BitVec 12
  unacked : Nat
  latency : Nat
  lastAck : BitVec 12
  naks : Nat
  deriving DecidableEq, Repr

def Link.reset : Link where
  up := false
  training := true
  lost := false
  align := false
  plane := false
  ver := 0
  retry := 0
  partner := 0
  nextSeq := 0
  naking := false
  fails := 0
  retrains := []
  sendSeq := 0
  unacked := 0
  latency := 0
  lastAck := BitVec.allOnes 12
  naks := 0

/-- A log record (R262): 512 bits. -/
abbrev LogRecord := BitVec 512

/-- A failed sensor (R260): tower, class, index. -/
structure SensorId where
  tower : Nat
  die : DieClass
  index : Nat
  deriving DecidableEq, Repr

/-- Fliyn and the management state (R259 to R264). -/
structure Mgmt where
  log : List LogRecord
  logSeq : Nat
  ringBase : Word
  ringSize : Byte
  /-- Copies of records that are on their way to the host event ring; the place of the next one, and the places whose record
  the host has not taken (R262). -/
  ring : List LogRecord
  ringNext : Nat
  ringHeld : List Nat
  ringDrops : Nat
  /-- The host port trained with CXL; without it no queue is enabled and no host address reachable (R250). -/
  cxl : Bool
  /-- Granules of 1 GiB of HBM that the host reaches through CXL.mem (R249, R252). -/
  hdm : BitVec 384
  failedSensors : List SensorId
  /-- The value of each sensor at the last sample and the samples for which it has not changed; the power of each tower in mW
  at the samples of the last 2 s, latest first (R259, R260). -/
  still : List (SensorId × Int × Nat)
  power : Vector (List Nat) 4
  /-- Tower clocks in MHz, and what they are the least of: the setting that the power cap leaves, and the limit of the thermal
  state (R18, R261). -/
  clocks : Vector Nat 4
  setting : Nat
  thermal : Vector Nat 4
  tripped : Bool
  /-- No firmware slot verified at the last reset: nothing boots (R263, log entry 95). -/
  noBoot : Bool
  /-- Fatal errors reported to the host (R261). -/
  fatal : Nat
  /-- Deterministic mode is to be left at the next step boundary (R19). -/
  forcedExit : Bool
  /-- The two firmware slots: version and whether it verifies; the active one; the one active after reset. -/
  fwVersions : Vector Nat 2
  fwActive : Fin 2
  fwNext : Fin 2
  rollback : Nat
  /-- Security version of the device identity (R263). -/
  identity : Nat
  /-- Measurements handed out last (R264). -/
  attested : List Nat
  deriving DecidableEq, Repr

def Mgmt.reset : Mgmt where
  log := []
  logSeq := 0
  ringBase := 0
  ringSize := 0
  ring := []
  ringNext := 0
  ringHeld := []
  ringDrops := 0
  cxl := true
  hdm := 0
  failedSensors := []
  still := []
  power := Vector.replicate 4 []
  clocks := Vector.replicate 4 1200
  setting := 1200
  thermal := Vector.replicate 4 1200
  tripped := false
  noBoot := false
  fatal := 0
  forcedExit := false
  fwVersions := Vector.replicate 2 0
  fwActive := 0
  fwNext := 0
  rollback := 0
  identity := 0
  attested := []

/-- The module stands still until device reset: after a thermal trip (R261), or where no firmware has booted (log entry
95). -/
def Mgmt.stopped (m : Mgmt) : Bool := m.tripped || m.noBoot

/-! The bundle in issue. -/

/-- Cause, sub-code and slot of a trap (R210), the faulting address, and the GEN of every mark of a chain (R231). -/
structure TrapInfo where
  cause : Nat
  sub : Nat
  slot : Nat
  addr : Word
  gens : List Nat := []
  deriving DecidableEq, Repr

/-- A control transfer of the bundle in issue: taken or not, target, what it does. -/
structure Transfer where
  taken : Bool
  target : Word
  kind : TransferKind
  deriving DecidableEq, Repr

/-- Bookkeeping of the model while a bundle issues. `multi`: the meanings only record traps, waits and holds, and
the step settles them for the whole bundle; otherwise each meaning settles its own. -/
structure Issue where
  multi : Bool
  slot : Option Nat
  /-- Syllables of the bundle. -/
  len : Nat
  syls : List (Nat × Instr)
  /-- How the bundle's engine wait ended, when it issues after one (R381). -/
  woken : Option WaitEnd
  /-- The waits of the bundle that have ended with its syllable completing. -/
  ended : List Wait
  trap : Option TrapInfo
  /-- No memory answers at an address that the bundle needs. -/
  fatal : Option Fault
  wait : Option Wait
  /-- An issue hold (R87). -/
  hold : Bool
  /-- TRAP: its bundle commits and then traps (R212). -/
  soft : Option TrapInfo
  halt : Bool
  /-- GEND in a member that is not the lead: its work ends (R98). -/
  gend : Bool
  transfer : Option Transfer
  lbrk : Bool
  /-- LOOP with count 0: the body is skipped to this address (R84). -/
  skip : Option Word
  /-- SYSW writes, which bind bundles after this one (R353). -/
  sysw : List (SysReg × Word)
  /-- Base register rewrite of the bundle's M0 access (R238). -/
  rewrite : Option (SReg × Word)
  /-- What SYSR, TSREAD and FASTAT of the bundle have read, by slot, at its first issue (R308, R353, R359, R381). -/
  reads : List (Nat × Word)
  /-- Lines of banks from which its syllables have read what a trap or a wait of the bundle rests on: these reads have been
  made whatever becomes of the bundle (R21). -/
  checks : List Nat
  deriving DecidableEq, Repr

def Issue.none : Issue where
  multi := false
  slot := .none
  len := 1
  syls := []
  woken := .none
  ended := []
  trap := .none
  fatal := .none
  wait := .none
  hold := false
  soft := .none
  halt := false
  gend := false
  transfer := .none
  lbrk := false
  skip := .none
  sysw := []
  rewrite := .none
  reads := []
  checks := []

/-- The module. -/
structure State where
  /-- The context that acts next, checked out of `others` (model's own). Place as CTXID [9:0]. -/
  cur : Nat
  me : Ctx
  others : Table Ctx
  issue : Issue
  /-- Cycles of the arithmetic clock (log entry 6). -/
  cycle : Nat
  /-- Every context that may issue in this cycle has had its turn: the engines act, then the cycle ends (R152). -/
  engines : Bool
  /-- Next cycle of a step boundary (R99) and of a 1 microsecond tick (R159); the 256-cycle ticks made (R176). -/
  nextStep : Nat
  nextTick : Nat
  ptsTicks : Nat
  /-- Events that the outside world has brought, oldest first. -/
  inputs : List Instr
  /-- Counter of free values (log entry 10). -/
  freeCount : Nat
  /-- Next fresh identity of a job, task, work or request. -/
  nextId : Nat
  cores : Table Core
  clusters : Table Cluster
  mem : List Host.Cell
  lines : Table LineData
  l1 : List L1Copy
  /-- Lines that the host may cache (R252). -/
  hostLines : List Nat
  /-- Lines of the L2 slices, and the lines that the limit on pinned lines has demoted (R157). -/
  l2 : List L2Line
  l2Demoted : Nat
  /-- Lines that core ports have written in this cycle before an engine has used their bank, and lines that engine ports have
  written in it (R152). -/
  early : List EarlyLine
  late : List LateLine
  /-- The lines that the instruction cache of a core holds (R15): core and line. Their value is that of memory. -/
  icache : List (Nat × Nat)
  /-- Tick stamps of 2 KiB rows and the 1 microsecond tick (R159). -/
  rowStamps : Table Nat
  homeTick : Nat
  /-- Latent faults of scratchpad lines (R21): line and fault. -/
  faults : List (Nat × CellFault)
  /-- Corrected lines that wait for their write-back (R23). -/
  corrections : List Nat
  /-- The background scrubber (R23): the next line of its round, and the cycle in which the round began. -/
  scrubNext : Nat
  scrubStart : Nat
  /-- Retired banks (R26), key 64 * cluster + bank; bus-fault cycles of a bank; counts of errors (R24). -/
  retired : List Nat
  busFaults : Table (List Nat)
  errorCounts : List (ErrorPlace × Nat)
  stkerr : Word
  timeStep : Word
  detReq : Bool
  detAct : Bool
  aligned : Bool
  logT : BitVec 5
  logTNext : BitVec 5
  /-- Step markers: whether this module is the time root, the step of the last good marker, consecutive good markers, whether
  alignment has been lost, and the cycle of the last boundary (R257). -/
  root : Bool
  markerLast : Word
  markersGood : Nat
  alignLost : Bool
  lastStep : Nat
  module : BitVec 12
  tvec : Word
  arosel : BitVec 6
  aroTable : Vector (BitVec 128) 64
  generation : BitVec 16
  /-- Installed microprograms: routine index and image (R305). -/
  images : Table Nat
  jobs : List Job
  /-- Tiles of collectives that a store has just reached against R274, whose contents the next step makes free (R11). -/
  breaches : List Breach
  /-- Counters of a COLL that has not started, by its job and their addresses, that a PCANCEL behind it has cancelled (R265). -/
  precancels : List (Nat × Nat)
  shardBefore : List ShardBefore
  /-- Regions of works that have ended, which commands that the map unit has accepted still use (R347). -/
  leftRegions : List (Nat × MapRegion)
  requests : List PageRequest
  queues : Table Queue
  slotRecords : Table (BitVec 1024)
  slotStatus : Table Word
  /-- The queue served last at each level (R198). -/
  served : Vector Nat 4
  depCounters : Table Int
  /-- What an acquire raises a timestamp to (R187): for a barrier, the final timestamps of jobs in completed phases and
  in the current one; for a dependence counter; for work that has ended (R92). -/
  releases : Table (Word × Word)
  depReleases : Table Word
  workPts : Table Word
  tasks : List TaskInfo
  saved : List Saved
  links : Vector Link 12
  mgmt : Mgmt
  /-- Fault records posted to the host, and events only counted (R155, R192, R254). -/
  counted : Nat
  faultRecords : Nat
  deriving DecidableEq, Repr

/-- The module right after device reset (R8). Values that the manual does not give are log entry 3: among them the slot status
words, which start at 0x00, Free (R191). -/
def State.reset : State where
  cur := 0
  me := Ctx.reset
  others := []
  issue := Issue.none
  cycle := 0
  engines := false
  nextStep := 4096
  nextTick := 1200
  ptsTicks := 0
  inputs := []
  freeCount := 0
  nextId := 1
  cores := []
  clusters := []
  mem := []
  lines := []
  l1 := []
  hostLines := []
  l2 := []
  l2Demoted := 0
  early := []
  late := []
  icache := []
  rowStamps := []
  homeTick := 0
  faults := []
  corrections := []
  scrubNext := 0
  scrubStart := 0
  retired := []
  busFaults := []
  errorCounts := []
  stkerr := 0
  timeStep := 0
  detReq := false
  detAct := false
  aligned := false
  logT := 12
  logTNext := 12
  root := false
  markerLast := 0
  markersGood := 0
  alignLost := false
  lastStep := 0
  module := 0
  tvec := 0
  arosel := 0
  aroTable := Vector.replicate 64 0
  generation := 0
  images := []
  jobs := []
  breaches := []
  precancels := []
  shardBefore := []
  leftRegions := []
  requests := []
  queues := []
  slotRecords := []
  slotStatus := []
  served := Vector.replicate 4 63
  depCounters := []
  releases := []
  depReleases := []
  workPts := []
  tasks := []
  saved := []
  links := Vector.replicate 12 Link.reset
  mgmt := Mgmt.reset
  counted := 0
  faultRecords := 0

end Sys2Proof.Machine
end

