-- ==== Sys2Proof/Machine/Ops.lean ====
section
/-! DEFINITION. The shared operations over the state: sparse tables, bytes of memory, contexts by place, registers
and results in flight, address translation and the chase of relocation marks, transaction barriers, system register
writes, the log, the end of a bundle, collective tiles, save areas, and taking an exception and returning from it. -/

namespace Sys2Proof.Machine

/-! Sparse tables. -/

/-- The entry at a key, or the default. -/
def Table.get {α : Type} (d : α) (t : Table α) (k : Nat) : α := (t.lookup k).getD d
/-- Put an entry in its place by key; the default value is not listed. -/
def Table.set {α : Type} [DecidableEq α] (d : α) (t : Table α) (k : Nat) (v : α) : Table α :=
  t.filter (fun e => e.1 < k) ++ (if v = d then [] else [(k, v)]) ++ t.filter (fun e => k < e.1)

/-! Bytes of memory. What an unlisted address reads as: log entry 1. -/

/-- What an address that nothing has written reads as (log entry 1, DESIGN CHOICE). -/
def emptyByte : Byte := 0
/-- The byte at a physical address. -/
def readByte (m : List Host.Cell) (a : Nat) : Byte := (m.lookup a).getD emptyByte
/-- `n` bytes at `a` as a little-endian number (R3). -/
def loadBytes (m : List Host.Cell) (a n : Nat) : Nat :=
  (m.filter fun c => a ≤ c.1 && c.1 < a + n).foldl (fun acc c => acc + c.2.toNat * 256 ^ (c.1 - a)) 0
/-- The listed cells of `n` bytes of a little-endian number from `a` on. -/
def cellsOf (a : Nat) : Nat → Nat → List Host.Cell
  | 0, _ => []
  | n + 1, v =>
    (if BitVec.ofNat 8 v = emptyByte then [] else [(a, BitVec.ofNat 8 v)]) ++ cellsOf (a + 1) n (v / 256)
/-- Write `n` bytes of a little-endian number at `a`. -/
def storeBytes (m : List Host.Cell) (a n v : Nat) : List Host.Cell :=
  m.filter (fun c => c.1 < a) ++ cellsOf a n v ++ m.filter (fun c => a + n ≤ c.1)

/-- Keys rise strictly. -/
def rising : List Nat → Bool
  | [] => true
  | a :: rest => (match rest with | [] => true | b :: _ => decide (a < b)) && rising rest
/-- The canonical form of memory: addresses rise, and no listed byte equals what an unlisted address reads as. -/
def Memory.wf (m : List Host.Cell) : Bool := rising (m.map (·.1)) && m.all (fun c => c.2 != emptyByte)

/-! Bit fields. -/

/-- Bits [hi:lo] of a number. -/
def bits (w hi lo : Nat) : Nat := w / 2 ^ lo % 2 ^ (hi + 1 - lo)
def wmax (a b : Word) : Word := if a < b then b else a
/-- A flag as a number. -/
def b2n (b : Bool) : Nat := if b then 1 else 0

/-! Places. A place is CTXID [9:0]: tower [9:8], cluster [7:4], core [3:2], context [1:0] (R83). -/

def coreOf (loc : Nat) : Nat := loc / 4
def clusterOf (loc : Nat) : Nat := loc / 16
def towerOf (loc : Nat) : Nat := loc / 256
/-- The physical address of a scratchpad byte (R150); the cluster counts over all towers. -/
def scratchPa (cluster bank off : Nat) : Nat :=
  0x1000000000000 + cluster / 16 * 2 ^ 32 + cluster % 16 * 2 ^ 28 + bank * 2 ^ 22 + off

/-- The context at a place. -/
def State.ctx (s : State) (loc : Nat) : Ctx :=
  if loc = s.cur then s.me else Table.get Ctx.reset s.others loc
/-- Change the context at a place. -/
def State.setCtx (s : State) (loc : Nat) (c : Ctx) : State :=
  if loc = s.cur then { s with me := c } else { s with others := Table.set Ctx.reset s.others loc c }
def State.modCtx (s : State) (loc : Nat) (f : Ctx → Ctx) : State := s.setCtx loc (f (s.ctx loc))
/-- Change the acting context. -/
def State.modMe (s : State) (f : Ctx → Ctx) : State := { s with me := f s.me }
/-- Check the context at a place out as the acting one. -/
def State.actAs (s : State) (loc : Nat) : State :=
  if loc = s.cur then s
  else { s with
          cur := loc
          me := Table.get Ctx.reset s.others loc
          others := Table.set Ctx.reset (Table.set Ctx.reset s.others s.cur s.me) loc Ctx.reset }
/-- The places whose context differs from an idle one after reset, in order. -/
def State.places (s : State) : List Nat :=
  (s.others.filter (fun e => e.1 < s.cur)).map (·.1) ++ [s.cur] ++
    (s.others.filter (fun e => s.cur < e.1)).map (·.1)
def State.core (s : State) (k : Nat) : Core := Table.get Core.reset s.cores k
def State.setCore (s : State) (k : Nat) (c : Core) : State :=
  { s with cores := Table.set Core.reset s.cores k c }
def State.cluster (s : State) (k : Nat) : Cluster := Table.get Cluster.reset s.clusters k
def State.setCluster (s : State) (k : Nat) (c : Cluster) : State :=
  { s with clusters := Table.set Cluster.reset s.clusters k c }
def State.line (s : State) (pa : Nat) : LineData := Table.get LineData.clear s.lines (pa / 64)
def State.setLine (s : State) (pa : Nat) (d : LineData) : State :=
  { s with lines := Table.set LineData.clear s.lines (pa / 64) d }
/-- A fresh identity. -/
def State.fresh (s : State) : Nat × State := (s.nextId, { s with nextId := s.nextId + 1 })
/-- Use up one free value (log entry 10). -/
def State.drawn (s : State) : State := { s with freeCount := s.freeCount + 1 }
/-- CTXID of a place (R83). -/
def State.ctxid (s : State) (loc : Nat) : Word := BitVec.ofNat 64 (s.module.toNat * 1024 + loc % 1024)

/-! Reading registers. s0 reads zero unpoisoned, p0 true, m0 all ones (R279, R325). -/

def Regs.sget (r : Regs) (i : SReg) : Word := if i = 0 then 0 else r.s[i]
def Regs.poison (r : Regs) (i : SReg) : Bool := i ≠ 0 && r.sp.getLsbD i.val
def Regs.pget (r : Regs) (i : PReg) : Bool := i = 0 || r.p.getLsbD i.val
def Regs.vget (r : Regs) (i : VReg) : VecVal := r.v[i]
def Regs.mget (r : Regs) (i : MReg) : MaskVal := if i = 0 then BitVec.allOnes 8192 else r.m[i]
def Regs.eget (r : Regs) (i : EReg) : ScaleVal := r.e[i]

/-- Replace the bits of `old` that `sel` names by those of `new`. -/
def mergeBits {w : Nat} (sel old new : BitVec w) : BitVec w := (old &&& ~~~sel) ||| (new &&& sel)
/-- The bit map of a vector register from a map of its bytes (R225). -/
def byteMap (sel : MaskVal) : VecVal :=
  BitVec.ofNat 65536 ((List.range 8192).foldl
    (fun acc i => if sel.getLsbD i then acc ||| (255 <<< (8 * i)) else acc) 0)

/-- Write one register; s0, p0 and m0 discard (R279, R325). -/
def RegWrite.apply (w : RegWrite) (r : Regs) : Regs :=
  match w with
  | .scalar d v po =>
    if d = 0 then r
    else { r with
      s := r.s.set d v
      sp := if po then r.sp ||| (1#64 <<< d.val) else r.sp &&& ~~~(1#64 <<< d.val) }
  | .pred d v =>
    if d = 0 then r
    else { r with p := if v then r.p ||| (1#8 <<< d.val) else r.p &&& ~~~(1#8 <<< d.val) }
  | .vec d v none => { r with v := r.v.set d v }
  | .vec d v (some sel) => { r with v := r.v.set d (mergeBits (byteMap sel) r.v[d] v) }
  | .bits d v sel => { r with v := r.v.set d (mergeBits sel r.v[d] v) }
  | .mask d v none => if d = 0 then r else { r with m := r.m.set d v }
  | .mask d v (some sel) => if d = 0 then r else { r with m := r.m.set d (mergeBits sel r.m[d] v) }
  | .scale d v => { r with e := r.e.set d v }
  | .shape v => { r with vshp := v }

/-! Results in flight (R71, R73, R213). -/

/-- Insert a result behind every one that retires no later (R73). -/
def insertFlight (f : Flight) : List Flight → List Flight
  | [] => [f]
  | g :: rest =>
    if g.due < f.due || (g.due = f.due && g.slot ≤ f.slot) then g :: insertFlight f rest else f :: g :: rest

/-- Apply every result due by a cycle, in order. -/
def retireRegs (cycle : Nat) (fl : List Flight) (r : Regs) : Regs :=
  (fl.filter fun f => f.due ≤ cycle).foldl (fun r f => f.w.apply r) r
/-- Retire the results due by a cycle. -/
def Ctx.retire (c : Ctx) (cycle : Nat) : Ctx :=
  { c with
    regs := retireRegs cycle c.inflight c.regs
    inflight := c.inflight.filter fun f => cycle < f.due }
/-- Mark the M0 accesses that `p` selects as returned. One whose strict-ECC trap is still due stays on record
(R172). -/
def settleM0 (p : Outstanding → Bool) (l : List Outstanding) : List Outstanding :=
  l.filterMap fun o => if p o then (if o.ecc then some { o with written := true } else none) else some o
/-- The M0 accesses that `p` selects, which have returned, become results of slot M0, due at their own cycle, so that
they retire among the others in the order of R73 (R71). -/
def Ctx.returnM0 (c : Ctx) (p : Outstanding → Bool) : Ctx :=
  { c with
    inflight := (c.m0.filter fun o => p o && !o.written).foldl
      (fun l o => o.writes.foldl (fun l w => insertFlight { due := o.due, slot := 6, born := 0, w := w } l) l) c.inflight
    m0 := settleM0 p c.m0 }
/-- Complete every outstanding M0 access at once (R214). -/
def Ctx.completeM0 (c : Ctx) : Ctx :=
  { c with
    regs := (c.m0.filter fun o => !o.written).foldl (fun r o => o.writes.foldl (fun r w => w.apply r) r) c.regs
    m0 := settleM0 (fun _ => true) c.m0 }
/-- Results due by a cycle, M0 results among them, are written (R71, R73). -/
def Ctx.arrive (c : Ctx) (cycle : Nat) : Ctx := (c.returnM0 fun o => decide (o.due ≤ cycle)).retire cycle
/-- The latch records and late traps of a resumed context count from its first bundle, which issues at `cycle`
(R214). -/
def Ctx.deliver (c : Ctx) (cycle : Nat) : Ctx :=
  { c with
    inflight := c.latched.foldl
      (fun l f => insertFlight { f with due := cycle + f.due, born := 0 } l) c.inflight
    latched := []
    ecc := c.ecc ++ c.eccLatched.map (cycle + ·)
    eccLatched := [] }

/-- The slot of the syllable in issue; `d` where it stands alone. -/
def State.slotOr (s : State) (d : Nat) : Nat := s.issue.slot.getD d
/-- What a SYSR or TSREAD of the bundle reads (R353, R359): the value at the first issue of the bundle, which a bundle in
an engine wait has kept (R381). -/
def State.readNow (s : State) (slot : Nat) (v : Word) : Word := (s.issue.reads.lookup (s.slotOr slot)).getD v
/-- Keep what a SYSR or TSREAD has read. -/
def State.noteRead (s : State) (slot : Nat) (v : Word) : State :=
  { s with issue := { s.issue with reads := s.issue.reads ++ [(s.slotOr slot, v)] } }
/-- Put a result of latency `lat` in flight for the acting context. -/
def State.result (s : State) (slot lat : Nat) (w : RegWrite) : State :=
  let f : Flight := { due := s.cycle + lat, slot := s.slotOr slot, born := s.cycle, w := w }
  s.modMe fun c => { c with inflight := insertFlight f c.inflight }
/-- Occupy the slot of the syllable for `n` cycles (R71, R72); a form that the table of R71 does not list occupies it for one
(log entry 82). -/
def State.occupy (s : State) (slot n : Nat) : State :=
  let k := coreOf s.cur
  let c := s.core k
  let sl := s.slotOr slot
  s.setCore k { c with slotFree := c.slotFree.setIfInBounds sl (s.cycle + n) }

/-- An outstanding M0 access of the acting context. Its latency is the least of R71 plus a free value (log
entry 5). -/
def State.outstanding (s : State) (ws : List RegWrite) (ecc : Bool) : State :=
  let o : Outstanding :=
    { due := s.cycle + Config.m0Latency + Config.m0Extra s.freeCount, writes := ws, base := none, ecc := ecc
      written := false }
  (s.modMe fun c => { c with m0 := c.m0 ++ [o] }).drawn
/-- An access to a movable page holds its base register as an outstanding M0 destination until its chase has resolved
(R237). -/
def State.holdBase (s : State) (b : SReg) : State :=
  let o : Outstanding :=
    { due := s.cycle + Config.m0Latency + Config.m0Extra s.freeCount, writes := [], base := some b, ecc := false
      written := false }
  if b = 0 then s else (s.modMe fun c => { c with m0 := c.m0 ++ [o] }).drawn

/-! The log (R262). -/

/-- A log record: type, severity, source, payload (R262). -/
def logRecord (s : State) (type sev src payload : Nat) : LogRecord :=
  BitVec.ofNat 512 (s.mgmt.logSeq % 2 ^ 64 + s.timeStep.toNat * 2 ^ 64 + type % 2 ^ 16 * 2 ^ 128 +
    src % 2 ^ 8 * 2 ^ 144 + sev % 2 ^ 8 * 2 ^ 152 + s.module.toNat * 2 ^ 160 + payload * 2 ^ 192)
/-- Append a record to the persistent log; its copy goes to the host ring (R262). -/
def State.post (s : State) (type sev src payload : Nat) : State :=
  let r := logRecord s type sev src payload
  let m := s.mgmt
  { s with mgmt := { m with
      log := (m.log ++ [r]).drop (m.log.length + 1 - 262144)
      logSeq := m.logSeq + 1
      ring := m.ring ++ [r] } }
/-- A fault record to the host (R216, R155, R205), of the tower of a place. -/
def State.faultRecord (s : State) (payload : Nat) (loc : Nat := s.cur) : State :=
  { s.post 0x0030 2 (towerOf loc) payload with faultRecords := s.faultRecords + 1 }
/-- Count an event that the manual only counts. -/
def State.count (s : State) : State := { s with counted := s.counted + 1 }

/-! The stacked layers (R21 to R26). -/

/-- Bytes of a bank (R14). -/
def bankSize : Nat := Config.bankBytes
/-- The cluster and the bank of a scratchpad address. -/
def clusterOfPa (pa : Nat) : Nat := pa / 2 ^ 28 % 64
def bankOfPa (pa : Nat) : Nat := pa / 2 ^ 22 % 64
/-- An address in a scratchpad bank (R150). -/
def inBank (pa : Nat) : Bool := 0x1000000000000 ≤ pa && pa < 0x1000400000000
/-- The bank of a scratchpad address is among those that `gone` lists. -/
def bankGone (gone : List Nat) (pa : Nat) : Bool := inBank pa && gone.contains (64 * clusterOfPa pa + bankOfPa pa)
/-- The bank of a scratchpad address is retired (R26). -/
def State.inRetired (s : State) (pa : Nat) : Bool := bankGone s.retired pa
/-- STKERR fields of a location (R25). -/
def stkerrWord (kind cluster bank group word : Nat) (wr engine : Bool) : Word :=
  BitVec.ofNat 64 (2 ^ 63 + kind * 2 ^ 60 + cluster / 16 * 2 ^ 58 + bank / 16 * 2 ^ 56 + cluster % 16 * 2 ^ 52 +
    bank * 2 ^ 46 + group * 2 ^ 41 + b2n wr * 2 ^ 40 + b2n engine * 2 ^ 39 + word)
/-- Latch a record where it is the most severe one (R24, R25), and log it. -/
def State.latchError (s : State) (kind cluster bank group word : Nat) (wr engine : Bool) : State :=
  let w := stkerrWord kind cluster bank group word wr engine
  let s := { s with
    stkerr := if s.stkerr.getLsbD 63 = false || bits s.stkerr.toNat 62 60 < kind then w else s.stkerr }
  s.post (if kind = 5 then 0x0002 else 0x0001) (if kind = 1 || kind = 2 then 1 else 2) (cluster / 16) w.toNat
/-- Count a classified error by its kind and location (R24). -/
def countError (p : ErrorPlace) : List (ErrorPlace × Nat) → List (ErrorPlace × Nat)
  | [] => [(p, 1)]
  | e :: rest => if e.1 = p then (p, e.2 + 1) :: rest else e :: countError p rest
/-- A classified error of a bank (R21, R24). -/
def State.stackError (s : State) (kind cluster bank group word : Nat) (wr engine : Bool) : State :=
  { s with errorCounts :=
      countError { kind := kind, cluster := cluster, bank := bank, group := group, word := word } s.errorCounts
    }.latchError kind cluster bank group word wr engine
/-- Cycles of 100 ms at the clock of a tower in MHz (R18, R26). -/
def cyclesOf100ms (mhz : Nat) : Nat := mhz * 100000
/-- Retire a bank (R26). Its contents are lost: log entry 14. The record of kind 0b101 names no group, word, write or port:
these fields are 0 (log entry 69). -/
def State.retireBank (s : State) (cluster bank : Nat) : State :=
  let k := 64 * cluster + bank
  if s.retired.contains k then s
  else { s with retired := s.retired ++ [k] }.latchError 5 cluster bank 0 0 false false
/-- A bus fault of a bank; the eighth within 100 ms retires it (R26). -/
def State.busFault (s : State) (cluster bank : Nat) : State :=
  let k := 64 * cluster + bank
  let window := cyclesOf100ms (s.mgmt.clocks[cluster / 16]?.getD 1200)
  let l := (Table.get [] s.busFaults k).filter (fun c => s.cycle < c + window) ++ [s.cycle]
  let s := { s with busFaults := Table.set [] s.busFaults k l }
  if 8 ≤ l.length then s.retireBank cluster bank else s
/-- A fault of a word of a line, which its parity does not show (R21). -/
def CellFault.isCell : CellFault → Bool
  | .cellSingle _ | .cellDouble _ => true
  | .busRetry _ | .busFail _ => false
/-- Two bits of a word (R21). -/
def CellFault.isDouble : CellFault → Bool
  | .cellDouble _ => true
  | .cellSingle _ | .busRetry _ | .busFail _ => false
/-- The parity group of a transfer that fails once, or of one whose repeat fails too (R21, R22). -/
def CellFault.retried : CellFault → Option Nat
  | .busRetry g => some g
  | .busFail _ | .cellSingle _ | .cellDouble _ => none
def CellFault.failed : CellFault → Option Nat
  | .busFail g => some g
  | .busRetry _ | .cellSingle _ | .cellDouble _ => none
/-- The latent faults of a line. -/
def State.faultsAt (s : State) (line : Nat) : List CellFault := (s.faults.filter fun f => f.1 = line).map (·.2)
/-- The cell faults of a line stay after a transfer of it; a fault of the transfer itself is gone. -/
def State.transferred (s : State) (line : Nat) : State :=
  { s with faults := s.faults.filter fun f => f.1 ≠ line || f.2.isCell }
/-- A word of a line that has been read is found bad (R21); a corrected line waits for its write-back (R23). -/
def State.badWord (s : State) (line cl b first : Nat) (engine : Bool) (f : CellFault) : State :=
  match f with
  | .cellSingle w =>
    let t := s.stackError 2 cl b 0 (first + w) false engine
    { t with corrections := if t.corrections.contains line then t.corrections else t.corrections ++ [line] }
  | .cellDouble w => s.stackError 3 cl b 0 (first + w) false engine
  | .busRetry _ | .busFail _ => s
/-- The poison of a line as a port sees it in this cycle (R152). -/
def State.portPoison (s : State) (pa : Nat) (engine : Bool) : Bool :=
  if engine then
    match s.early.find? fun (x : EarlyLine) => x.line = pa / 64 with
    | some x => x.poison
    | none => (s.line pa).poison
  else
    match s.late.find? fun (x : LateLine) => x.line = pa / 64 with
    | some x => x.poison
    | none => (s.line pa).poison
/-- Read one line of a bank: the outcome of R21, every bad word of the line classified. The result says whether the line is
delivered poisoned. Of several parity groups that fail in one transfer the first one listed is recorded, which no rule says
(log entry 117). -/
def State.sramLine (s : State) (pa : Nat) (engine : Bool) : State × Bool :=
  let cl := clusterOfPa pa
  let b := bankOfPa pa
  let first := pa % 2 ^ 22 / 64 * 8
  let stored := s.portPoison pa engine
  let fs := s.faultsAt (pa / 64)
  let cells := fs.filter CellFault.isCell
  match fs.findSome? CellFault.failed, fs.findSome? CellFault.retried with
  | some g, _ => (((s.transferred (pa / 64)).stackError 4 cl b g first false engine).retireBank cl b, true)
  | none, some g =>
    if cells = [] then (((s.transferred (pa / 64)).stackError 1 cl b g first false engine).busFault cl b, stored)
    else (cells.foldl (fun t f => t.badWord (pa / 64) cl b first engine f) (s.transferred (pa / 64)),
      stored || cells.any CellFault.isDouble)
  | none, none =>
    (cells.foldl (fun t f => t.badWord (pa / 64) cl b first engine f) s, stored || cells.any CellFault.isDouble)
/-- A read of one line of a bank (R21). What a bank delivers that was retired before the access, `gone`, is lost (R26, log
entry 14). An access that retires the bank itself completes by R21 with its other lines. -/
def State.sramRead (s : State) (pa : Nat) (engine : Bool) (gone : List Nat := s.retired) : State × Bool :=
  if bankGone gone pa then (s.drawn, s.portPoison pa engine) else s.sramLine pa engine
/-- A write of the bytes that `mask` selects of `n` bytes of one line of a bank: parity as R22 gives, so that a repeat that
fails too leaves the line poisoned; a cell fault ends where its whole word is written. A write whose repeat passes counts and
latches as a bus fault with WR = 1 (log entry 69). -/
def State.sramWrite (s : State) (pa n : Nat) (engine : Bool) (mask : BitVec 64 := BitVec.allOnes 64) : State :=
  let cl := clusterOfPa pa
  let b := bankOfPa pa
  let first := pa % 2 ^ 22 / 64 * 8
  let fs := s.faultsAt (pa / 64)
  let whole (w : Nat) : Bool := pa % 64 ≤ 8 * w && 8 * w + 8 ≤ pa % 64 + n && mask.toNat / 2 ^ (8 * w) % 256 == 255
  let ends : CellFault → Bool
    | .cellSingle w | .cellDouble w => whole w
    | .busRetry _ | .busFail _ => true
  let t := { s with
    corrections := s.corrections.filter fun l => l ≠ pa / 64
    faults := s.faults.filter fun f => f.1 ≠ pa / 64 || !ends f.2 }
  match fs.findSome? CellFault.failed, fs.findSome? CellFault.retried with
  | some g, _ => ((t.setLine pa { s.line pa with poison := true }).stackError 4 cl b g first true engine).retireBank cl b
  | none, some g => (t.stackError 1 cl b g first true engine).busFault cl b
  | none, none => t

/-! Scratchpad (R151, R152, R155). -/

/-- A write to lines of a bank marks them dirty in the regions that hold them (R155). -/
def State.markDirty (s : State) (cluster bank off n : Nat) : State :=
  let lo := bank * bankSize + off
  let upd (r : MapRegion) : MapRegion :=
    if r.start < lo + n && lo < r.start + r.len then
      let ls := (List.range (n / 64 + 2)).filterMap fun i =>
        let p := (lo / 64 + i) * 64
        if p < lo + n && r.start ≤ p && p < r.start + r.len && !r.dirty.contains ((p - r.start) / 64)
        then some ((p - r.start) / 64) else none
      { r with dirty := r.dirty ++ ls }
    else r
  let s := s.places.foldl (fun s l =>
    if clusterOf l = cluster && (s.ctx l).regions ≠ [] then
      s.modCtx l fun c => { c with regions := c.regions.map upd } else s) s
  { s with saved := s.saved.map fun (v : Saved) =>
      if clusterOf v.loc = cluster then { v with regions := v.regions.map upd } else v }
/-- Keep the lines of a bank that a core writes in this cycle as they stood before it (R152). -/
def State.keepEarly (s : State) (lines : List Nat) : State :=
  { s with early := s.early ++ (lines.filter fun l => !s.early.any fun x => x.line = l).map fun l =>
      ({ line := l, data := BitVec.ofNat 512 (loadBytes s.mem (64 * l) 64), poison := (s.line (64 * l)).poison } : EarlyLine) }
/-- `n` free bytes, that a read of a lost place delivers (R26, log entries 10 and 14). -/
def lostBytes (count pa : Nat) : Nat → Nat
  | 0 => 0
  | n + 1 => (Config.freeByte (2 ^ 64 * (count + 1) + pa)).toNat + 256 * lostBytes count (pa + 1) n
/-- The line with the number `line` in a memory. -/
def lineOf (m : List Host.Cell) (line : Nat) : BitVec 512 := BitVec.ofNat 512 (loadBytes m (64 * line) 64)
/-- Memory as engine ports see it in this cycle: without the writes of core ports (R152). -/
def State.engineMem (s : State) : List Host.Cell :=
  s.early.foldl (fun m x => storeBytes m (64 * x.line) 64 x.data.toNat) s.mem
/-- Memory as core ports see it in this cycle: without the writes of engine ports (R152). -/
def State.coreMem (s : State) : List Host.Cell :=
  s.late.foldl (fun m x => storeBytes m (64 * x.line) 64 x.data.toNat) s.mem
/-- What a port reads in this cycle (R152); the contents of a bank that was retired before the access are lost (R26). -/
def State.portBytes (s : State) (engine : Bool) (pa n : Nat) (gone : List Nat := s.retired) : Nat :=
  if bankGone gone pa then lostBytes s.freeCount pa n else loadBytes (if engine then s.engineMem else s.coreMem) pa n
/-- An engine has used the engine port of the bank of an address: a later access through it in the model's order comes in a
later cycle of the port, and finds what the cores have written (R140, R152). -/
def State.portUsed (s : State) (pa : Nat) : State :=
  { s with early := s.early.filter fun x => x.line * 64 / 2 ^ 22 ≠ pa / 2 ^ 22 }
/-- One line read through an engine port (R21, R152). -/
def State.portRead (s : State) (pa : Nat) (gone : List Nat := s.retired) : State × Bool :=
  let r := s.sramRead pa true gone
  (r.1.portUsed pa, r.2)

/-! Physical addresses (R150). -/

/-- An address in HBM (R150). -/
def inHbm (pa : Nat) : Bool := pa < 0x6000000000
/-- HBM and host memory, which the L2 slices and L1s cache; scratchpad they do not (R156, R157). -/
def cacheable (pa : Nat) : Bool := inHbm pa || 0x8000000000000 ≤ pa
/-- An address that R150 reserves. -/
def reservedPa (pa : Nat) : Bool :=
  !(pa < 0x6000000000 ||
    (0x1000000000000 ≤ pa && pa < 0x1000400000000 && pa % 0x400000 < 0x300000) ||
    (0x8000000000000 ≤ pa && pa < 0x10000000000000))

/-- An address that no access reaches: reserved, or a host address without CXL (R150, R250). -/
def unreachable (cxl : Bool) (pa : Nat) : Bool := reservedPa pa || (!cxl && 0x8000000000000 ≤ pa)
/-- `unreachable` for this module. -/
def State.noPa (s : State) (pa : Nat) : Bool := unreachable s.mgmt.cxl pa

/-! Translation (R160 to R163), marks (R173, R230). -/

/-- The kind of an access. -/
inductive Access where
  | read
  | write
  | exec
  deriving DecidableEq, Repr

/-- How a translation ends (R163); `hole` where a table lies at an address that R150 reserves or that R250 makes
unreachable, `chain` at a fourth mark (R173). -/
inductive XStatus where
  | ok
  | format
  | absent
  | protect
  | hole
  | chain
  deriving DecidableEq, Repr

/-- A translation: status, physical address, leaf entry. -/
structure Xlate where
  st : XStatus
  pa : Nat
  e : Nat
  deriving DecidableEq, Repr

/-- Consecutive ones of ADDR counted up from bit 12, at most `fuel` (R162). -/
def trailingOnes (e : Nat) : Nat → Nat → Nat
  | 0, _ => 0
  | fuel + 1, b => if e / 2 ^ b % 2 = 1 then 1 + trailingOnes e fuel (b + 1) else 0
/-- log2 of the page size of a leaf, none for a size code above 19 (R162). -/
def leafLog (e : Nat) : Option Nat :=
  if bits e 11 11 = 0 then some 12
  else
    let k := trailingOnes e 20 12
    if k ≤ 19 then some (13 + k) else none
/-- PageBase of a leaf (R162, R163). -/
def leafBase (e log : Nat) : Nat := bits e 51 12 * 4096 / 2 ^ log * 2 ^ log
def leafHome (e : Nat) : Nat := bits e 61 60
def leafEph (e : Nat) : Bool := bits e 59 59 == 1
def leafMov (e : Nat) : Bool := bits e 58 58 == 1
/-- The whole page lies in one range that R150 does not reserve. -/
def pageMapped (base size : Nat) : Bool :=
  base + size ≤ 0x6000000000 ||
  (0x1000000000000 ≤ base && base + size ≤ 0x1000400000000 && base % 0x400000 + size ≤ 0x300000) ||
  (0x8000000000000 ≤ base && base + size ≤ 0x10000000000000)
/-- What a leaf at level `lvl` gives (R161 to R163). -/
def leafXlate (va e lvl : Nat) (kind : Access) (user : Bool) : Xlate :=
  match leafLog e with
  | none => { st := .format, pa := 0, e := e }
  | some log =>
    let base := leafBase e log
    if 2 < lvl || !(12 + 9 * lvl ≤ log && log < 21 + 9 * lvl) || !pageMapped base (2 ^ log) ||
        (leafEph e && !inHbm base) then { st := .format, pa := 0, e := e }
    else if bits e 57 57 = 0 then { st := .absent, pa := 0, e := e }
    else if (kind = .write && bits e 56 56 = 0) || (kind = .exec && bits e 55 55 = 0) || (user && bits e 54 54 = 0)
      then { st := .protect, pa := 0, e := e }
    else { st := .ok, pa := base + va % 2 ^ log, e := e }
/-- The walk of R163 from the entry `e` at level `lvl`; `read` gives the entry at an address. -/
def walk (cxl : Bool) (read : Nat → Nat) (va : Nat) (kind : Access) (user : Bool) : Nat → Nat → Xlate
  | 0, e =>
    if bits e 63 63 = 0 then { st := .absent, pa := 0, e := e }
    else if bits e 53 52 ≠ 0 then { st := .format, pa := 0, e := e }
    else if bits e 62 62 = 1 then leafXlate va e 0 kind user
    else { st := .format, pa := 0, e := e }
  | lvl + 1, e =>
    if bits e 63 63 = 0 then { st := .absent, pa := 0, e := e }
    else if bits e 53 52 ≠ 0 then { st := .format, pa := 0, e := e }
    else if bits e 62 62 = 1 then leafXlate va e (lvl + 1) kind user
    else if bits e 61 54 ≠ 0 || bits e 11 11 ≠ 0 then { st := .format, pa := 0, e := e }
    else
      let a := bits e 51 12 * 4096 + 8 * (va / 2 ^ (12 + 9 * lvl) % 512)
      if unreachable cxl a then { st := .hole, pa := 0, e := e }
      else walk cxl read va kind user lvl (read a)
/-- The addresses of the entries that the walk of R163 reads from the entry `e` at level `lvl` on. -/
def walkReads (cxl : Bool) (read : Nat → Nat) (va : Nat) : Nat → Nat → List Nat
  | 0, _ => []
  | lvl + 1, e =>
    let a := bits e 51 12 * 4096 + 8 * (va / 2 ^ (12 + 9 * lvl) % 512)
    if bits e 63 62 ≠ 2 || bits e 61 52 ≠ 0 || bits e 11 11 ≠ 0 || unreachable cxl a then []
    else a :: walkReads cxl read va lvl (read a)
/-- The entry of a page table at an address; a table in a bank is read through its engine port (R157). -/
def State.tableEntry (s : State) (a : Nat) : Nat := s.portBytes true a 8
/-- Translate() of R163 in the address space of a PTROOT. -/
def State.translate (s : State) (root va : Word) (kind : Access) (user : Bool) : Xlate :=
  if va.toNat / 2 ^ 57 ≠ 0 then { st := .format, pa := 0, e := 0 }
  else
    let a := bits root.toNat 51 12 * 4096 + 8 * (va.toNat / 2 ^ 48 % 512)
    if s.noPa a then { st := .hole, pa := 0, e := 0 }
    else
      let x := walk s.mgmt.cxl s.tableEntry va.toNat kind user 4 (s.tableEntry a)
      if x.st == .ok && s.noPa x.pa then { x with st := .hole } else x
/-- The lines of banks from which a translation reads its tables. -/
def State.tableLines (s : State) (root va : Word) : List Nat :=
  if va.toNat / 2 ^ 57 ≠ 0 then []
  else
    let a := bits root.toNat 51 12 * 4096 + 8 * (va.toNat / 2 ^ 48 % 512)
    if s.noPa a then []
    else
      ((a :: walkReads s.mgmt.cxl s.tableEntry va.toNat 4 (s.tableEntry a)).filter inBank).map (· / 64)
/-- Lines of banks are read through their engine ports, for a walk or a fetch (R21), in one access: each completes by R21 also
where one before it has retired the bank (R26). What these make of a poisoned line the manual does not say: they take the bits
as they stand (log entry 69). -/
def State.readLines (s : State) (l : List Nat) (gone : List Nat := s.retired) : State :=
  l.foldl (fun (t : State) n => (t.portRead (64 * n) gone).1) s

/-- A movable page whose lines carry marks (R229). -/
def movable (x : Xlate) : Bool :=
  leafMov x.e && inHbm x.pa && leafHome x.e ≤ 1 && !leafEph x.e

/-- What ChaseMark gives (R173): the translation reached, the delta, the GEN of each mark met, and the latest timestamp
at which one of them was written, which an access that chases it follows (R190, R234); and the lines of banks from which
its translations have read their tables. -/
structure Chased where
  x : Xlate
  delta : Word
  gens : List Nat
  seen : Word
  tables : List Nat
  deriving DecidableEq, Repr

/-- ChaseMark() of R173: at most three hops. -/
def chaseFrom (s : State) (root va : Word) (kind : Access) (user : Bool) :
    Nat → Word → List Nat → Word → List Nat → Chased
  | fuel, delta, gens, seen, tables =>
    let x := s.translate root (va + delta) kind user
    let tables := tables ++ s.tableLines root (va + delta)
    if x.st ≠ .ok || !movable x || !(s.line x.pa).mark then
      { x := x, delta := delta, gens := gens, seen := seen, tables := tables }
    else
      let m := loadBytes s.mem (x.pa / 64 * 64) 64
      let gens := gens ++ [bits m 143 128]
      let seen := wmax seen (s.line x.pa).wts
      match fuel with
      | 0 => { x := { x with st := .chain }, delta := delta, gens := gens, seen := seen, tables := tables }
      | fuel + 1 =>
        chaseFrom s root va kind user fuel (delta + (BitVec.ofNat 64 (bits m 56 0) - BitVec.ofNat 64 (bits m 120 64)))
          gens seen tables
def chase (s : State) (root va : Word) (kind : Access) (user : Bool) : Chased :=
  chaseFrom s root va kind user 3 0 [] 0 []

/-! Footprints (R200). -/

/-- Two regions that order two jobs: they share a byte, and one is written. -/
def FootRegion.meets (a b : FootRegion) : Bool :=
  (a.write || b.write) && a.scratch == b.scratch && a.space == b.space && 0 < a.len && 0 < b.len &&
    a.base < b.base + b.len && b.base < a.base + a.len
def footMeets (l r : List FootRegion) : Bool := l.any fun a => r.any fun b => a.meets b

/-! What a job knows of memory. -/

/-- `n` bytes at an address within its line's bytes. -/
def lineBytes (line pa n : Nat) : Nat := line / 2 ^ (8 * (pa % 64)) % 2 ^ (8 * n)
/-- A page whose request was refused for this job. -/
def Job.refusedPage (j : Job) (va : Word) : Bool := j.done.contains (va.toNat / 4096)
/-- The element of `es` bytes at `va` in the lines that a job has read; none where its line is poisoned. -/
def Job.elem (j : Job) (va es : Nat) : Option Nat :=
  match j.src.lookup (va / 64) with
  | some (d, false) => some (d / 2 ^ (8 * (va % 64)) % 2 ^ (8 * es))
  | some (_, true) | none => none
/-- `n` bytes from `va` on in the lines that a job has read; none where a line of them is poisoned. -/
def Job.kept (j : Job) (va n : Nat) : Option Nat :=
  (List.range n).foldr (fun i acc => match j.elem (va + i) 1, acc with
    | some b, some a => some (b + 256 * a)
    | _, _ => none) (some 0)

/-- What a job finds where it looks ahead: the value, an absent page that it would wait for (R167), or a place that it could not
read (R384). -/
inductive Look where
  | found (v : Nat)
  | absent
  | lost
  deriving DecidableEq, Repr

/-- The `k` bytes `here` and what stands behind them. -/
def Look.join (here : Look) (k : Nat) (rest : Look) : Look :=
  match here, rest with
  | .found a, .found b => .found (a + 2 ^ (8 * k) * b)
  | .lost, _ | _, .lost => .lost
  | .absent, _ | _, .absent => .absent

/-! The record of a collective (R266). -/

/-- A scratchpad address word (R201): bank and offset. -/
def scratchWord (w : Word) : Option (Nat × Nat) :=
  let n := w.toNat
  if bits n 63 60 = 1 && bits n 59 28 = 0 then some (bits n 27 22, bits n 21 0) else none
/-- Local destination tiles (R266). -/
def collTiles (op n rank tiles : Nat) : Nat :=
  match op with
  | 1 => (List.range tiles).countP fun t => t % n = rank
  | 2 => n * tiles
  | _ => tiles
/-- The collective of a record, before its tiles and without its group (R266). -/
def Coll.ofRecord (loc r : Nat) : Coll :=
  let n := bits r 59 48 + 1
  let v := bits r 15 0
  let tiles := bits r 95 80 + 1
  { version := v, op := bits r 17 16, plane := bits r 18 18 == 1, fmt := bits r 20 19, cid := bits r 47 32
    members := n, rank := bits r 75 64, tileCount := tiles
    src := BitVec.ofNat 64 (bits r 191 128), dst := BitVec.ofNat 64 (bits r 255 192)
    cnt := match scratchWord (BitVec.ofNat 64 (bits r 319 256)) with
      | some (b, o) => if v = 0x0300 then scratchPa (clusterOf loc) b o else 0
      | none => 0
    group := [], whole := false, result := 0, drops := 0
    tiles := List.replicate (collTiles (bits r 17 16) n (bits r 75 64) tiles)
      { headers := [], planes := [], wholes := [], k := 0, fin := false, can := false, shown := false, acquired := false
        spoiled := false }
    cancels := []
    told := false
    read := false }
/-- The footprint that a record gives a COLL (R267, log entry 18). -/
def collFoot (j : Job) (r : Nat) : List FootRegion :=
  let n := bits r 59 48 + 1
  let tiles := bits r 95 80 + 1
  let op := bits r 17 16
  let es := if bits r 20 19 = 0 then 4 else 2
  let locals := collTiles op n (bits r 75 64) tiles
  let virt (base len : Nat) (write : Bool) : FootRegion :=
    { scratch := false, space := j.root.toNat, base := base, len := len, write := write }
  [virt (bits r 191 128) (tiles * 256 * es) false, virt (bits r 255 192) (locals * 1024) true] ++
    (match scratchWord (BitVec.ofNat 64 (bits r 319 256)) with
      | some (b, o) => [{ scratch := true, space := clusterOf j.loc, base := b * bankSize + o, len := locals, write := true }]
      | none => [])
/-- `k` bytes of one line at `va` as a job would read them now, without any effect: those of a line that it has read already stay
(R294). -/
def State.peekLine (s : State) (j : Job) (va : Word) (k : Nat) : Look :=
  match j.src.lookup (va.toNat / 64) with
  | some (_, true) => .lost
  | some (d, false) => .found (lineBytes d va.toNat k)
  | none =>
    let c := chase s j.root va .read j.user
    match c.x.st with
    | .ok => if s.inRetired c.x.pa || (s.line c.x.pa).poison then .lost else .found (loadBytes s.mem c.x.pa k)
    | .absent => if j.refusedPage (va + c.delta) then .lost else .absent
    | .format | .protect | .hole | .chain => .lost
/-- `n` bytes from `va` on as a job would read them now, without any effect. -/
def State.peek (s : State) (j : Job) : Nat → Word → Nat → Look
  | 0, _, _ => .found 0
  | fuel + 1, va, n =>
    if n = 0 then .found 0
    else
      let k := Nat.min n (64 - va.toNat % 64)
      (s.peekLine j va k).join k (State.peek s j fuel (va + BitVec.ofNat 64 k) (n - k))
/-- The record of a COLL that has not started, as it stands. -/
def State.recordAhead (s : State) (j : Job) : Look :=
  match j.kind with
  | .coll record none => s.peek j 2 record 64
  | .coll _ (some _) | .copy .. | .reloc .. | .msweep .. | .smap .. | .swb .. | .preq _ | .fampw _ | .task .. | .tdep ..
  | .reshard .. => .lost
/-- The footprint that holds a COLL that has not started: that of its issue, and that of its record as it stands (R267). -/
def State.footAhead (s : State) (j : Job) : List FootRegion :=
  match s.recordAhead j with
  | .found r => j.foot ++ collFoot j r
  | .absent | .lost => j.foot

/-! Collectives whose data a store reaches (R11, R274). -/

/-- The local destination tile that tile `t` of member `r` goes to (R266). -/
def Coll.destOf (c : Coll) (t r : Nat) : Option Nat :=
  if c.tileCount ≤ t || c.members ≤ r then none
  else
    match c.op with
    | 0 => some t
    | 1 => if t % c.members = c.rank then some (t / c.members) else none
    | 2 => some (r * c.tileCount + t)
    | _ => if r = 0 then some t else none
/-- Whether this module contributes its source tiles. -/
def Coll.contributes (c : Coll) : Bool := c.op ≠ 3 || c.rank = 0
/-- The address of a local destination tile, the bytes of a source element, and the address of a source tile (R266). -/
def Coll.tileVa (c : Coll) (u : Nat) : Word := c.dst + BitVec.ofNat 64 (1024 * u)
def Coll.srcBytes (c : Coll) : Nat := if c.fmt = 0 then 4 else 2
def Coll.srcVa (c : Coll) (t : Nat) : Word := c.src + BitVec.ofNat 64 (256 * c.srcBytes * t)
/-- A write of `n` bytes at `pa`, of the bytes that `mask` selects in each line, touches one of the `k` bytes from `p` on. -/
def writeTouches (pa n : Nat) (mask : BitVec 64) (p k : Nat) : Bool :=
  decide (p < pa + n ∧ pa < p + k) &&
    (List.range k).any fun i => decide (pa ≤ p + i ∧ p + i < pa + n) && mask.getLsbD ((p + i) % 64)
/-- The same for `m` bytes of a job's address space from `va` on, where their pages are resident. -/
def State.reaches (s : State) (j : Job) (kind : Access) (pa n : Nat) (mask : BitVec 64) : Nat → Word → Nat → Bool
  | 0, _, _ => false
  | fuel + 1, va, m =>
    if m = 0 then false
    else
      let k := Nat.min m (64 - va.toNat % 64)
      let x := (chase s j.root va kind j.user).x
      (x.st == .ok && writeTouches pa n mask x.pa k) || State.reaches s j kind pa n mask fuel (va + BitVec.ofNat 64 k) (m - k)
/-- The program may write a tile: PWAIT or PCNT has shown its FIN, and it has been acquired (R274). -/
def CollTile.free (t : CollTile) : Bool := t.fin && t.shown && t.acquired
/-- The tiles of a collective whose data a write of `n` bytes at `pa` makes undefined (R11, R274): those that the program may
not write yet, and open ones to which this module contributes from a source that the write changes. What a write finds where
a page is not resident is not that page's (log entry 79). -/
def State.collBreaches (s : State) (j : Job) (c : Coll) (pa n : Nat) (mask : BitVec 64) : List Breach :=
  ((List.range c.tiles.length).filter fun u =>
      (c.tiles[u]?.any fun y => !y.free) && s.reaches j .write pa n mask 18 (c.tileVa u) 1024).map (⟨j.id, ·, true⟩) ++
    (List.range (if c.contributes then c.tileCount else 0)).filterMap fun t =>
      match c.destOf t c.rank with
      | some u =>
        if (c.tiles[u]?.any fun y => !y.fin) && s.reaches j .read pa n mask 18 (c.srcVa t) (256 * c.srcBytes)
        then some ⟨j.id, u, false⟩ else none
      | none => none
/-- The tiles of the collectives of this module whose data a write makes undefined; of a COLL that has not started those that
its record gives it as it stands, since the program keeps its source from its issue on (R11, R274). -/
def State.breachesOf (s : State) (pa n : Nat) (mask : BitVec 64) : List Breach :=
  s.jobs.flatMap fun j =>
    match j.kind with
    | .coll _ (some c) => s.collBreaches j c pa n mask
    | .coll _ none =>
      (match s.recordAhead j with
        | .found r => s.collBreaches j (Coll.ofRecord j.loc r) pa n mask
        | .absent | .lost => [])
    | .copy .. | .reloc .. | .msweep .. | .smap .. | .swb .. | .preq _ | .fampw _ | .task .. | .tdep .. | .reshard .. => []
/-- A COLL that has not started. -/
def Job.waitsToStart (k : Job) : Bool :=
  match k.kind with
  | .coll _ none => true
  | .coll _ (some _) | .copy .. | .reloc .. | .msweep .. | .smap .. | .swb .. | .preq _ | .fampw _ | .task .. | .tdep ..
  | .reshard .. => false
/-- A COLL waits to start, and job `j` holds it: what `j` writes comes before it by the order of R188 and R200. -/
def State.awaitsJob (s : State) (k j : Job) : Bool :=
  k.waitsToStart && j.id < k.id && j.domain == k.domain && footMeets (s.footAhead k) j.foot
/-- A COLL waits to start, and task `t` holds it (R200). -/
def State.awaitsTask (s : State) (k : Job) (t : TaskInfo) : Bool :=
  k.waitsToStart && t.id < k.id && t.id != k.task && t.domain == k.domain && footMeets (s.footAhead k) t.foot
/-- Of the breaches of the jobs that `p` selects those stay that stood before. -/
def State.pardon (t : State) (before : List Breach) (p : Job → Bool) : State :=
  { t with breaches := t.breaches.filter fun b => before.contains b || !t.jobs.any fun k => k.id == b.job && p k }
/-- What a job writes breaks no rule for its own data, nor for those of a COLL that it holds (R188, R200, R274); the same of the
work of a task that holds a COLL. `s` is the state before the write. -/
def State.forgive (t : State) (j : Job) (s : State) : State :=
  t.pardon s.breaches fun k => k.id == j.id || s.awaitsJob k j || s.tasks.any fun u => u.id == j.task && s.awaitsTask k u
/-- What a work writes by itself breaks no rule for the data of a COLL that its task holds (R200, R274). -/
def State.forgiveWork (t : State) (work : Nat) (s : State) : State :=
  t.pardon s.breaches fun k => s.tasks.any fun u => u.live.contains work && s.awaitsTask k u
/-! Writes through the ports of a bank (R152). -/

/-- The bits of the line `line` that a write of `n` bytes at `pa` covers where `mask` selects them. -/
def coveredBits (pa n line : Nat) (mask : BitVec 64) : BitVec 512 :=
  BitVec.ofNat 512 ((List.range 64).foldr
    (fun j acc => (if pa ≤ 64 * line + j && 64 * line + j < pa + n && mask.getLsbD j then 255 else 0) + 256 * acc) 0)
/-- The engine port writes bytes of a line in this cycle, after the core ports (R152): what these see is kept. `effect` is
what the write makes of the line's poison. -/
def State.keepLate (s : State) (pa n line : Nat) (mask : BitVec 64) (effect : Option Bool) : State :=
  let w := coveredBits pa n line mask
  { s with late :=
      if s.late.any fun x => x.line = line then
        s.late.map fun (x : LateLine) =>
          if x.line = line then { x with written := x.written ||| w, effect := effect.or x.effect } else x
      else s.late ++ [{ line := line, data := lineOf s.mem line, poison := (s.line (64 * line)).poison, written := w
                        effect := effect }] }
/-- Lines that `n` bytes at an address touch. -/
def linesOf (pa n : Nat) : List Nat := (List.range ((pa + n - 1) / 64 + 1 - pa / 64)).map fun i => pa / 64 + i
/-- The bytes of a write through an engine port (R152), and the collectives whose data it reaches (R11). -/
def State.engineWrite (s : State) (pa n val : Nat) (effect : Option Bool) (mask : BitVec 64 := BitVec.allOnes 64) : State :=
  let t := ((linesOf pa n).foldl (fun (t : State) l => t.keepLate pa n l mask effect) s).portUsed pa
  { t with mem := storeBytes s.mem pa n val, breaches := s.breaches ++ s.breachesOf pa n mask }
/-- The bytes of a write through a core port: what engine ports write in the same cycle prevails (R152); and the collectives
whose data it reaches (R11). -/
def State.coreWrite (s : State) (pa n val : Nat) : State :=
  let t := s.keepEarly (linesOf pa n)
  let m := storeBytes s.coreMem pa n val
  { t with
    breaches := s.breaches ++ s.breachesOf pa n (BitVec.allOnes 64)
    mem := s.late.foldl (fun k x =>
      storeBytes k (64 * x.line) 64 (mergeBits x.written (lineOf m x.line) (lineOf s.mem x.line)).toNat) m
    late := s.late.map fun (x : LateLine) => { x with data := lineOf m x.line } }
/-- What a write makes of a line's poison: a poisoned source sets it, an unpoisoned write of the whole line clears it
(R172). -/
def poisonEffect (setP clr : Bool) : Option Bool := if setP then some true else if clr then some false else none
/-- The poison of a line after a write through a port; what an engine port makes of it in the same cycle prevails (R152). -/
def State.writePoison (s : State) (pa : Nat) (engine : Bool) (effect : Option Bool) : State :=
  let d := s.line pa
  match effect with
  | none => s
  | some p =>
    if engine then s.setLine pa { d with poison := p }
    else
      let t := { s with late := s.late.map fun (x : LateLine) => if x.line = pa / 64 then { x with poison := p } else x }
      if s.late.any fun x => x.line = pa / 64 && x.effect.isSome then t else t.setLine pa { d with poison := p }
/-- Read `n` bytes of a bank line by line: the bytes, and whether some line is poisoned (R21, R172). Each line that is
delivered poisoned is counted (R171, R344). An access that retires the bank completes by R21 with its other lines (R26).
A poisoned line delivers its bytes as they are stored, which R21 leaves open (log entry 127). -/
def State.bankRead (s : State) (cluster bank off n : Nat) (engine : Bool) : State × Nat × Bool :=
  let pa := scratchPa cluster bank off
  let lines := (off + n - 1) / 64 - off / 64 + 1
  let gone := s.retired
  let r := (List.range lines).foldl (fun (s, p) i =>
    let line := scratchPa cluster bank ((off / 64 + i) * 64)
    let q := State.sramRead s line engine gone
    (if q.2 then q.1.count else q.1, p || q.2)) (s, false)
  (if engine then r.1.portUsed pa else r.1, s.portBytes engine pa n, r.2)
/-- Write `n` bytes of a bank. `setP`: the source is poisoned; a line written whole by a vector or an engine loses
its poison (R172). -/
def State.bankWrite (s : State) (cluster bank off n val : Nat) (setP clr engine : Bool) : State :=
  let pa := scratchPa cluster bank off
  let lines := (off + n - 1) / 64 - off / 64 + 1
  let s := if engine then s.engineWrite pa n val none else s.coreWrite pa n val
  let s := (List.range lines).foldl (fun s i =>
    let lo := (off / 64 + i) * 64
    let from_ := Nat.max lo off
    let lpa := scratchPa cluster bank from_
    let eff := poisonEffect setP (clr && (off ≤ lo && lo + 64 ≤ off + n))
    let s := if engine then State.keepLate s lpa 0 (lpa / 64) 0 eff else s
    State.sramWrite (State.writePoison s lpa engine eff) lpa (Nat.min (off + n) (lo + 64) - from_) engine) s
  s.markDirty cluster bank off n

/-! Lines at their homes (R156, R175, R252). -/

/-- The slice that holds a line has a newer value than memory, or has written it back (R156, R314). -/
def State.l2Mark (s : State) (line : Nat) (dirty : Bool) : State :=
  { s with l2 := s.l2.map fun (k : L2Line) => if k.line = line then { k with dirty := dirty } else k }
/-- L1s give up the copies that `p` selects: a dirty line is written back to its slice (R156). -/
def State.l1Give (s : State) (p : L1Copy → Bool) : State :=
  (s.l1.filter fun k => p k && k.dirty).foldl (fun (t : State) k => t.l2Mark k.line true)
    { s with l1 := s.l1.filter fun k => !p k }
/-- The home recalls a line from the L1 that holds it exclusive (R175). -/
def State.recall (s : State) (line : Nat) : State := s.l1Give fun k => k.excl && k.line = line
/-- The L1 of a core drops its copy of a line. -/
def State.l1Drop (s : State) (core line : Nat) : State := s.l1Give fun k => k.core = core && k.line = line
/-- A write of bytes of one line at its home, as Store() of R175 makes it: the line's timestamps, its poison, its read count
(R158), the stamp of its row and of the slice's copy (R159), the recall from the L1 that holds it exclusive, and the
back-invalidate snoop where the host may cache it (R252). A line of a bank is written through its engine port, with the
parity of R22. -/
def State.homeWrite (s : State) (pts : Word) (pa n val : Nat) (effect : Option Bool)
    (mask : BitVec 64 := BitVec.allOnes 64) : State × Word :=
  let d := s.line pa
  let wts := wmax pts (d.rts + 1)
  let t := if cacheable pa then { s with
      mem := storeBytes s.mem pa n val
      hostLines := s.hostLines.filter fun l => l ≠ pa / 64
      breaches := s.breaches ++ s.breachesOf pa n mask
      l2 := if inHbm pa then s.l2.map fun (k : L2Line) => if k.line = pa / 64 then { k with stamp := s.homeTick } else k else s.l2
      rowStamps := if inHbm pa then Table.set 0 s.rowStamps (pa / 2048) s.homeTick else s.rowStamps }
    else s.engineWrite pa n val effect mask
  let t := (t.setLine pa { d with wts := wts, rts := wts, readCount := 0, poison := effect.getD d.poison }).recall (pa / 64)
  (if cacheable pa then t else t.sramWrite pa n true mask, wts)

/-! Barrier unit (R206 to R208). A barrier is the 128-bit word at its physical address. -/

structure Barrier where
  pend : Int
  exp : Nat
  rem : Nat
  lseq : Nat
  ph : Bool
  ovf : Bool
  deriving DecidableEq, Repr

/-- A barrier as the engine port of its bank reads it (R152, R206). -/
def State.barrier (s : State) (pa : Nat) : Barrier :=
  let w := s.portBytes true pa 16
  let p := bits w 31 0
  { pend := if p < 2 ^ 31 then (p : Int) else (p : Int) - 2 ^ 32
    exp := bits w 47 32, rem := bits w 63 48, lseq := bits w 71 64
    ph := bits w 72 72 == 1, ovf := bits w 73 73 == 1 }
/-- The word of a barrier; its reserved bits keep `old`. -/
def Barrier.word (b : Barrier) (old : Nat) : Nat :=
  (b.pend % 2 ^ 32).toNat + b.exp * 2 ^ 32 + b.rem * 2 ^ 48 + b.lseq * 2 ^ 64 + b2n b.ph * 2 ^ 72 +
    b2n b.ovf * 2 ^ 73 + bits old 127 74 * 2 ^ 74
/-- The barrier unit writes a barrier through the engine port of its bank (R206); a line of a mapped region is then dirty
(R155, R346). -/
def State.setBarrier (s : State) (pa : Nat) (b : Barrier) : State :=
  ((s.engineWrite pa 16 (b.word (s.portBytes true pa 16)) none).sramWrite pa 16 true).markDirty (clusterOfPa pa)
    (bankOfPa pa) (pa % 2 ^ 22) 16
/-- The barrier unit reads the line of a barrier (R21). What it makes of a poisoned barrier the manual does not say: it
takes the bits as they stand (log entry 69). -/
def State.barrierLine (s : State) (pa : Nat) : State := (s.portRead pa).1
/-- The read of a read-modify-write of a barrier (R206): what it finds is what it changes and writes, over the writes that
core ports make to the barrier in the same cycle (R152). -/
def State.barrierFetch (s : State) (pa : Nat) : State :=
  let t := s.barrierLine pa
  if s.portBytes true pa 16 = loadBytes s.mem pa 16 then t else t.engineWrite pa 16 (s.portBytes true pa 16) none
/-- The BTEST word (R208). -/
def Barrier.testWord (b : Barrier) : Word :=
  BitVec.ofNat 64 (b2n b.ovf * 2 ^ 63 + b2n b.ph * 2 ^ 62 + b.lseq * 2 ^ 48 + b.rem * 2 ^ 32 +
    (b.pend % 2 ^ 32).toNat)

/-- Wake the contexts that `p` selects, which then complete their waits (R208, R381). -/
def State.wake (s : State) (p : Nat → Ctx → Option WaitEnd) : State :=
  s.places.foldl (fun s loc =>
    let c := s.ctx loc
    match c.woken, p loc c with
    | none, some r => s.setCtx loc { c with woken := some r }
    | _, _ => s) s
/-- The waiters on a barrier that its new state satisfies (R208). -/
def State.wakeBarrier (s : State) (pa : Nat) : State :=
  let b := s.barrier pa
  s.wake fun _ c =>
    match c.status with
    | .waiting (.barrier a q) =>
      if a ≠ pa then none else if b.ovf then some .overflow else if b.ph != q then some .completes else none
    | _ => none

/-- Change the bank set of a Saved work, in its save area too (R286). -/
def State.savedBanks (s : State) (work : Nat) (f : BitVec 64 → BitVec 64) : State :=
  s.saved.foldl (fun (t : State) v =>
      if v.work = work then (t.homeWrite 0 (v.area + 0x400) 8 (f v.banks).toNat none).1 else t)
    { s with saved := s.saved.map fun v => if v.work = work then { v with banks := f v.banks } else v }
/-- One bank of a completed pass (R285). -/
def State.passBank (s : State) (p : Pass) (b : Nat) : State :=
  let owners := s.places.filter fun l => (s.ctx l).work = p.issuer && (s.ctx l).status ≠ .idle
  let bit : BitVec 64 := 1#64 <<< b
  let held := owners.any (fun l => (s.ctx l).banks &&& bit ≠ 0) ||
    s.saved.any (fun v => v.work = p.issuer && v.banks &&& bit ≠ 0)
  if !held then s
  else
    let s := owners.foldl (fun s l => s.modCtx l fun c => { c with banks := c.banks &&& ~~~bit }) s
    let s := s.savedBanks p.issuer fun b => b &&& ~~~bit
    match p.target with
    | none => s
    | some t =>
      let s := (s.places.filter fun l => (s.ctx l).work = t && (s.ctx l).status ≠ .idle).foldl
        (fun s l => s.modCtx l fun c => { c with banks := c.banks ||| bit }) s
      s.savedBanks t fun b => b ||| bit
/-- The passes of a cluster that wait for a phase of the barrier at `pa` to complete (R285, R153). -/
def State.completePasses (s : State) (cl pa : Nat) (phase : Bool) : State :=
  let c := s.cluster cl
  let due := c.passes.filter fun p => p.barrier = pa && p.phase == phase
  let s := s.setCluster cl { c with passes := c.passes.filter fun p => !(p.barrier = pa && p.phase == phase) }
  due.foldl (fun s p =>
    (List.range 64).foldl (fun s b => if p.banks.getLsbD b then s.passBank p b else s) s) s
/-- A job of timestamp `pts` has written for the current phase of a barrier (R187). -/
def State.releaseAt (s : State) (pa : Nat) (pts : Word) : State :=
  let r := Table.get (0, 0) s.releases pa
  { s with releases := Table.set (0, 0) s.releases pa (r.1, wmax r.2 pts) }
/-- The acting context acquires the completed phases of a barrier (R180, R187). -/
def State.acquire (s : State) (pa : Nat) : State :=
  s.modMe fun c => { c with pts := wmax c.pts (Table.get (0, 0) s.releases pa).1 }
/-- Test() of R208, with the waking of waiters and the passing of banks. -/
def State.barrierTest (s : State) (pa : Nat) : State :=
  let b := s.barrier pa
  if b.pend = 0 && b.rem = 0 then
    let s := s.setBarrier pa { b with ph := !b.ph, rem := b.exp }
    let r := Table.get (0, 0) s.releases pa
    let s := { s with releases := Table.set (0, 0) s.releases pa (wmax r.1 r.2, 0) }
    (s.completePasses (clusterOfPa pa) pa b.ph).wakeBarrier pa
  else s
/-- Set OVF; every waiter then traps (R208). -/
def State.barrierOverflow (s : State) (pa : Nat) : State :=
  (s.setBarrier pa { s.barrier pa with ovf := true }).wakeBarrier pa
/-- BEXP (R208). -/
def State.barrierExpect (s : State) (pa : Nat) (n : Int) : State :=
  let s := s.barrierFetch pa
  let b := s.barrier pa
  if b.pend + n < -(2 ^ 31) || 2 ^ 31 ≤ b.pend + n then s.barrierOverflow pa
  else (s.setBarrier pa { b with pend := b.pend + n }).barrierTest pa
/-- BARV, and the arrival of a job that releases nothing (R208). -/
def State.barrierArrive (s : State) (pa : Nat) : State :=
  let s := s.barrierFetch pa
  let b := s.barrier pa
  if b.rem = 0 then s.barrierOverflow pa else (s.setBarrier pa { b with rem := b.rem - 1 }).barrierTest pa
/-- Arrival of `n` bytes from the command with sequence number `seq` (R208). -/
def State.barrierBytes (s : State) (pa n : Nat) (seq : BitVec 16) : State :=
  let s := s.barrierFetch pa
  let b := s.barrier pa
  if b.pend - n < -(2 ^ 31) then s.barrierOverflow pa
  else (s.setBarrier pa { b with pend := b.pend - n, lseq := seq.toNat % 256 }).barrierTest pa

/-! System register writes (R353, R7). -/

/-- TSCTL (R83). -/
def State.tsctl (s : State) : Word :=
  BitVec.ofNat 64 (b2n s.detReq * 2 ^ 63 + b2n s.detAct * 2 ^ 62 + b2n s.aligned * 2 ^ 61 + s.logT.toNat)
/-- A write of TSCTL: both fields act at the next boundary (R99, R101, R353). That a read shows the new DETREQ at once, the new
LOGT from the boundary on, no rule says (log entry 128). -/
def State.writeTsctl (s : State) (x : Word) : State :=
  let l := x.toNat % 32
  { s with
    detReq := x.getLsbD 63
    logTNext := if 8 ≤ l && l ≤ 16 then BitVec.ofNat 5 l else s.logTNext }
/-- The fields of an ownership-table entry that a write sets (R168). -/
def aroLoMask : Word := 0x01FFFFFFFFE00000#64
def aroHiMask : Word := 0x800000000003FFFF#64
/-- A write of one half of the entry that AROSEL selects (R168). -/
def State.writeAro (s : State) (hi : Bool) (x : Word) : State :=
  let i : Fin 64 := Fin.ofNat 64 s.arosel.toNat
  let old := s.aroTable[i]
  let new : BitVec 128 :=
    if hi then (x &&& aroHiMask) ++ old.extractLsb' 0 64 else old.extractLsb' 64 64 ++ (x &&& aroLoMask)
  { s with aroTable := s.aroTable.set i new }
/-- A write of EFR at the end of its bundle: the next two bundles use the old value, the third the new one (R112). Of two
writes in one bundle the later prevails. -/
def Ctx.writeEfr (c : Ctx) (x : Word) : Ctx :=
  { c with efrPend := c.efrPend.filter (fun e => e.wait != 2) ++ [{ val := x &&& 0xFF0F#64, wait := 2 }] }
/-- A write of CEERR clears it when V is written 1 (R205). -/
def Ctx.clearCeerr (c : Ctx) (x : Word) : Ctx := if x.getLsbD 63 then { c with ceerr := 0 } else c
/-- One SYSW of the acting context; an RO field ignores it (R352, R353). -/
def State.sysw (s : State) (r : SysReg) (x : Word) : State :=
  match r with
  | .vyrev | .vyfeat | .ctxid | .gidx | .dswid | .dsdrop | .tslate | .fampst | .cseq => s
  | .tsctl => s.writeTsctl x
  | .efr => s.modMe fun c => c.writeEfr x
  | .srkey => s.modMe fun c => { c with srkey := x }
  | .srorg => s.modMe fun c => { c with srorg := x }
  | .fatab => s.modMe fun c => { c with fatab := x &&& 0x3FFFFF#64 }
  | .ptroot => s.modMe fun c => { c with ptroot := x &&& 0xFFFFFFFFFF000#64 }
  | .memctl => s.modMe fun c => { c with memctl := x &&& 1#64 }
  | .arosel => { s with arosel := x.extractLsb' 0 6 }
  | .arolo => s.writeAro false x
  | .arohi => s.writeAro true x
  | .ceerr => s.modMe fun c => c.clearCeerr x
  | .tvec => { s with tvec := x &&& 0x1FFFFFFFFFFFFFC#64 }
  | .svpool =>
    let k := clusterOf s.cur
    s.setCluster k { s.cluster k with svbase := x &&& 0xFFFFFFE000000#64 }
  | .svcur => s.modMe fun c => { c with svcur := x &&& 0xFFFFFFFF00000#64 }
  | .stkerr => if x.getLsbD 63 then { s with stkerr := 0 } else s
/-- A half of the ownership-table entry that AROSEL selects (R168). -/
def ownershipHalf (r : SysReg) : Bool := r == .arolo || r == .arohi
/-- The SYSW writes of the bundle bind the bundles after it. A write of an ownership-table entry goes to the entry that
AROSEL selected when the bundle issued, so it comes before a write of AROSEL in the same bundle (R353). -/
def State.applySysw (s : State) : State :=
  let l := s.issue.sysw
  (l.filter (fun w => ownershipHalf w.1) ++ l.filter fun w => !ownershipHalf w.1).foldl
    (fun s (r, x) => s.sysw r x) s

/-! The end of a bundle. -/

/-- The end test of R85 on a stack of loops, innermost first: the stack and the next address, and whether control
goes back to a start (the iteration boundary). -/
def endTest (first next : Word) : List LoopEntry → List LoopEntry × Word × Bool
  | [] => ([], next, false)
  | e :: rest =>
    if e.start ≤ first && first < e.stop && e.stop ≤ next then
      if 1 < e.remaining then ({ e with remaining := e.remaining - 1 } :: rest, e.start, true)
      else endTest first next rest
    else (e :: rest, next, false)
/-- The pops of a taken BR, J, JR or CHK (R86). -/
def popLoops (target : Word) : List LoopEntry → List LoopEntry
  | [] => []
  | e :: rest => if e.start ≤ target && target < e.stop then e :: rest else popLoops target rest
/-- LBRK at the end of its bundle: pop the innermost, go to its end, test the outer entries as if the bundle ended
there (R323). With no entry it is a NOP and the bundle ends as any other (R86). Where its bundle holds a LOOP of a count
other than 0 too, the innermost entry is the one just pushed, which no rule says (log entry 119). -/
def lbrkEnd (first next : Word) : List LoopEntry → List LoopEntry × Word × Bool
  | [] => ([], next, false)
  | e :: rest => endTest first e.stop rest
/-- The countdown of pending EFR writes at the end of a bundle (R112). -/
def Ctx.tickEfr (c : Ctx) : Ctx :=
  let p := c.efrPend.map fun e => { e with wait := e.wait - 1 }
  { c with
    efr := (p.filter fun e => e.wait = 0).foldl (fun _ e => e.val) c.efr
    efrPend := p.filter fun e => e.wait ≠ 0 }
/-- The base-register rewrite of a bundle, unless another slot of the bundle writes the register (R238). -/
def Ctx.rewriteBase (c : Ctx) (cycle : Nat) : Option (SReg × Word) → Ctx
  | none => c
  | some (d, v) =>
    let own (f : Flight) : Bool :=
      f.born == cycle && f.slot != 6 && (match f.w with | .scalar d' _ _ => d' == d | _ => false)
    let f : Flight := { due := cycle + 1, slot := 6, born := cycle, w := .scalar d v (c.regs.poison d) }
    if c.inflight.any own then c else { c with inflight := insertFlight f c.inflight }

/-- An LBRK of the bundle pops an entry (R86, R323). -/
def Ctx.breaks (c : Ctx) (i : Issue) : Bool := i.lbrk && !c.loops.isEmpty
/-- The loop stack and the next bundle after a bundle that no taken transfer governs (R84 to R86, R323). LBRK decides
over the skip of a LOOP in its bundle, the end test over that skip (log entry 11). Whether a loop is active, so that a
pre-emption waits for its iteration boundary, is judged after the bundle, which no rule says (R219, log entry 125). -/
def Ctx.afterBundle (c : Ctx) (i : Issue) (next : Word) : Ctx :=
  let r := if c.breaks i then lbrkEnd c.pc next c.loops else endTest c.pc next c.loops
  match i.skip with
  | some t =>
    if r.2.2 || c.breaks i then { c with loops := r.1, pc := r.2.1, atPoint := r.2.2 || r.1.isEmpty }
    else { c with loops := r.1, pc := t, atPoint := r.1.isEmpty }
  | none => { c with loops := r.1, pc := r.2.1, atPoint := r.2.2 || r.1.isEmpty }
/-- Where control goes after a bundle of `len` syllables at the context's pc: transfers and their delay bundles
(R51, R215), loops (R84 to R86, R323). The delay bundles are the two that follow in memory: a taken transfer, or a
delay bundle of one, is followed by the next bundle in memory, though the end test of the transfer's own bundle counts
(log entry 11); where an untaken transfer or its delay bundle ends a loop's body and control goes back to the start, no
delay bundle is left. Control leaves a delay pair through `eret` where ERET is taken. -/
def Ctx.advance (c : Ctx) (i : Issue) : Ctx × Bool :=
  let next := c.pc + BitVec.ofNat 64 (4 * i.len)
  match i.transfer, c.delay with
  | some t, _ =>
    let d : Delay := { left := 2, taken := t.taken, target := t.target, kind := t.kind }
    if t.taken then
      let l := (if c.breaks i then lbrkEnd c.pc next c.loops else endTest c.pc next c.loops).1
      ({ c with loops := l, pc := next, atPoint := l.isEmpty, delay := some d }, false)
    else
      let a := c.afterBundle i next
      ({ a with delay := if a.pc = next && !c.breaks i then some d else none }, false)
  | none, none => (c.afterBundle i next, false)
  | none, some d =>
    if d.taken then
      let c := if i.lbrk then { c with loops := c.loops.tail } else c
      if 1 < d.left then ({ c with pc := next, delay := some { d with left := d.left - 1 }, atPoint := c.loops.isEmpty }, false)
      else
        match d.kind with
        | .eret => ({ c with pc := next, delay := none, atPoint := false }, true)
        | .plain => ({ c with pc := d.target, delay := none, atPoint := c.loops.isEmpty }, false)
        | .pops =>
          let l := popLoops d.target c.loops
          ({ c with pc := d.target, delay := none, loops := l, atPoint := l.isEmpty }, false)
    else
      let a := c.afterBundle i next
      ({ a with
          delay := if a.pc = next && !c.breaks i && 1 < d.left then some { d with left := d.left - 1 } else none }, false)

/-! The selector (R87 to R89). -/

/-- A context that the selector may choose (R88). -/
def Ctx.selectable (y : Ctx) : Bool := y.status == .ready && y.startAt.isNone && y.stopping.isNone
/-- Choose the next Ready context of an idle core, scanning from the context that left it (R88, R89); that context itself
comes last, which R88 leaves open (log entry 64). A member of a formed gang goes before the others, which issue nothing
while the gang exists (R94). -/
def State.select (s : State) (k : Nat) : State :=
  let c := s.core k
  let at_ (i : Nat) : Ctx := s.ctx (4 * k + (c.last.val + i) % 4)
  if c.current.isSome then s
  else
    match ([1, 2, 3, 4].find? fun i => (at_ i).selectable && (at_ i).ganged).or
        ([1, 2, 3, 4].find? fun i => (at_ i).selectable) with
    | none => s
    | some i =>
      let x : Fin 4 := Fin.ofNat 4 (c.last.val + i)
      let free := c.slotFree.toList.foldl Nat.max 0
      (s.setCore k { c with
        current := some x, notBefore := Nat.max c.notBefore free, picked := some s.cycle }).modCtx (4 * k + x.val)
        fun y => { y with status := .running, unissued := true }
/-- A context has become Ready on a core (R88): an idle core chooses. Where the core has chosen in this same cycle and the
chosen context has not issued, the scan order decides among all that are Ready in the cycle. -/
def State.readyOn (s : State) (k : Nat) : State :=
  let c := s.core k
  match c.current with
  | none => s.select k
  | some x =>
    let l := 4 * k + x.val
    if c.picked = some s.cycle && (s.ctx l).status == .running && (s.ctx l).unissued && (s.ctx l).stopping.isNone then
      ((s.setCore k { c with current := none }).modCtx l fun y => { y with status := .ready, unissued := false }).select k
    else s
/-- A context becomes Ready where its engine wait has ended or its start has come (R88, R91, R381). -/
def Ctx.readied (c : Ctx) (cycle : Nat) : Ctx :=
  match c.status, c.woken, c.stopping with
  | .waiting _, some _, none => { c with status := .ready }
  | _, _, _ => if c.startAt.any (· ≤ cycle) then { c with startAt := none } else c
/-- Every context of a core that becomes Ready in this cycle, and then the choice of an idle core (R88). -/
def State.readyCore (s : State) (k : Nat) : State :=
  ([0, 1, 2, 3].foldl (fun (s : State) i =>
    if (s.core k).current = some (Fin.ofNat 4 i) then s else s.modCtx (4 * k + i) fun c => c.readied s.cycle) s).readyOn k
/-- The context at `loc`, whose last bundle was at cycle `last`, leaves its core; the selector picks another (R88,
R89). -/
def State.leaveCore (s : State) (loc last : Nat) : State :=
  let k := coreOf loc
  let c := s.core k
  if c.current = some (Fin.ofNat 4 loc) then
    (s.setCore k { c with
      current := none, last := Fin.ofNat 4 loc
      notBefore := Nat.max c.notBefore (last + Config.switchDelay) }).select k
  else s

/-! Tasks and work. -/

/-- Decrement a dependence counter (R196). It is an integer without a limit here: what a decrement other than TDEP's, or an
addition of DEPS, does at the limit of the 32 bits of R356, no rule says (log entry 123). -/
def State.decrement (s : State) (h : Nat) (n : Int) : State :=
  { s with depCounters := Table.set 0 s.depCounters h (Table.get 0 s.depCounters h - n) }
/-- The state of a slot (R191). -/
def State.slotState (s : State) (q k : Nat) : Nat := (Table.get 0 s.slotStatus (64 * q + k)).toNat % 256
def State.setSlotStatus (s : State) (q k : Nat) (w : Word) : State :=
  { s with slotStatus := Table.set 0 s.slotStatus (64 * q + k) w }
/-- Retirement of a task (R195): the footprint goes with its entry, NOTIFY's counter falls, the slot reads 0x03, and
the task's own counter returns to 0 (R196): last, so that a NOTIFY of its own counter shows nothing, which no rule says (log
entry 112). -/
def State.retire (s : State) (t : TaskInfo) : State :=
  let s := { s with tasks := s.tasks.filter fun (u : TaskInfo) => u.id ≠ t.id }
  let s := match t.notify with | some h => s.decrement h 1 | none => s
  let s := s.setSlotStatus t.queue t.slot 3#64
  { s with depCounters := Table.set 0 s.depCounters t.handle 0 }
/-- Work has executed HALT, or its task ended: joiners go on, and the task retires with its last work (R195,
R316, R349). -/
def State.endWork (s : State) (work task : Nat) : State :=
  let s := s.wake fun _ c => if c.status = .waiting (.join work) then some .completes else none
  let s := { s with tasks := s.tasks.map fun (t : TaskInfo) => if t.id = task then { t with live := t.live.erase work } else t }
  match s.tasks.find? fun t => t.id = task with
  | some t => if t.started && t.live.isEmpty then s.retire t else s
  | none => s
/-- Planes of a collective's source format (R266). -/
def Coll.planeCount (c : Coll) : Nat := if c.fmt = 0 then 32 else 16
/-- The active collective and the tile whose counter stands at a physical address; a record of version 0x0200 keeps no
counters (R271, R273). -/
def State.planeCounter (s : State) (pa : Nat) : Option (Job × Coll × CollTile) :=
  s.jobs.findSome? fun j =>
    match j.kind with
    | .coll _ (some c) =>
      if c.version = 0x0200 || pa < c.cnt then none else (c.tiles[pa - c.cnt]?).map fun t => (j, c, t)
    | _ => none
/-- The place of a live work, if it holds a context. -/
def State.placeOf (s : State) (work : Nat) : Option Nat :=
  s.places.find? fun l => (s.ctx l).work = work && (s.ctx l).status ≠ .idle
/-- The banks of the work that issued a job (R80); of a work that has ended, those it had then (R274). -/
def State.banksOf (s : State) (j : Job) : BitVec 64 :=
  match j.ended, s.placeOf j.work with
  | some b, _ => b
  | none, some l => (s.ctx l).banks
  | none, none => match s.saved.find? fun (v : Saved) => v.work = j.work with | some v => v.banks | none => 0
/-- The record's checks 0x01 to 0x05 (R267). -/
def State.collCheck (s : State) (j : Job) (r : Nat) : Option Nat :=
  let v := bits r 15 0
  let locals := collTiles (bits r 17 16) (bits r 59 48 + 1) (bits r 75 64) (bits r 95 80 + 1)
  let reserved := bits r 511 448 ≠ 0 || bits r 447 425 ≠ 0 || bits r 127 96 ≠ 0 || bits r 79 76 ≠ 0 ||
    bits r 63 60 ≠ 0 || bits r 31 21 ≠ 0
  let old := bits r 18 18 ≠ 0 || bits r 319 256 ≠ 0 || bits r 424 424 ≠ 0 || bits r 415 384 ≠ 0
  let es := if bits r 20 19 = 0 then 4 else 2
  if v ≠ 0x0300 && v ≠ 0x0200 then some 0x01
  else if reserved || bits r 20 19 = 3 || (v = 0x0200 && old) then some 0x02
  else if bits r 59 48 < bits r 75 64 then some 0x03
  else if bits r 191 128 % es ≠ 0 || bits r 255 192 % 4 ≠ 0 || bits r 383 320 % 8 ≠ 0 then some 0x04
  else if v = 0x0300 then
    match scratchWord (BitVec.ofNat 64 (bits r 319 256)) with
    | some (b, o) => if (s.banksOf j).getLsbD b && o + locals ≤ bankSize then none else some 0x05
    | none => some 0x05
  else none
/-- The group table as module numbers (R266). -/
def groupOf (n g : Nat) : List Nat := (List.range n).map fun i => g / 2 ^ (16 * i) % 4096
/-- Checks 0x06 and 0x07 (R267). `past` are the jobs whose collective will have ended by then. -/
def State.groupCheck (s : State) (r : Nat) (group : List Nat) (past : Job → Bool := fun _ => false) : Option Nat :=
  let cid := bits r 47 32
  let active := s.jobs.any fun j => match j.kind with | .coll _ (some c) => c.cid == cid && !past j | _ => false
  if !group.Nodup || group[bits r 75 64]? ≠ some s.module.toNat then some 0x06
  else if active then some 0x07
  else none
/-- Whether a COLL that has not started gives the counter at `pa` a tile, as everything stands (R265, R267): `some true` where its
record gives it that counter and passes its checks; none where it leaves the counter alone; `some false` where the page of its
record or group table is absent, so that nothing shows it yet. Collectives that hold the COLL have ended when it starts. -/
def State.tileAhead (s : State) (j : Job) (pa : Nat) : Option Bool :=
  if !j.waitsToStart then none
  else
    match s.recordAhead j with
    | .lost => none
    | .absent => some false
    | .found r =>
      let c := Coll.ofRecord j.loc r
      let n := bits r 59 48 + 1
      if c.version ≠ 0x0300 || pa < c.cnt || c.cnt + c.tiles.length ≤ pa || (s.collCheck j r).isSome then none
      else
        match s.peek j (n / 32 + 2) (BitVec.ofNat 64 (bits r 383 320)) (2 * n) with
        | .lost => none
        | .absent => some false
        | .found g => if (s.groupCheck r (groupOf n g) (s.awaitsJob j)).isNone then some true else none
/-- The last COLL of a work, of those before job `before`, that its PCE has not started and that gives the counter at `pa` a tile,
or may give it one: the counter forms behind it act on the counter as it will leave it (R265, R267). One whose record fails
leaves it unchanged (log entry 42). -/
def State.counterAhead (s : State) (work pa : Nat) (before : Nat := s.nextId) : Option (Job × Bool) :=
  (s.jobs.filterMap fun j =>
    if j.work = work && j.id < before then (s.tileAhead j pa).map fun b => (j, b) else none).getLast?
/-- The condition of PWAIT for `k` planes (R271). -/
def planesReached (c : Coll) (t : CollTile) (k : Nat) : Bool := t.fin || decide (Nat.min k c.planeCount ≤ t.k)
/-- A PWAIT of a context ends: its counter has reached its planes, or belongs to no active collective (R271); behind a COLL that
has not started it waits for that one's tile, unless a PCANCEL has come first (R265). -/
def State.planesEnd (s : State) (y : Ctx) : Option WaitEnd :=
  match y.status with
  | .waiting (.planes pa k) =>
    (match s.counterAhead y.work pa, s.planeCounter pa with
      | some (j, _), _ => if s.precancels.contains (j.id, pa) then some .completes else none
      | none, none => some .completes
      | none, some (_, c, t) => if planesReached c t k then some .completes else none)
  | _ => none
/-- The contexts in a PWAIT that ends. -/
def State.wakePlanes (s : State) : State := s.wake fun _ y => s.planesEnd y
/-- The byte of a counter (R270). -/
def CollTile.byte (t : CollTile) : Nat := b2n t.can * 128 + b2n t.fin * 64 + t.k
/-- Freeze one tile, unless it is final (R271). -/
def CollTile.freeze (t : CollTile) : CollTile := if t.fin then t else { t with fin := true, can := true }
/-- The engine of a collective writes one counter byte (R155, R270). -/
def State.counterWrite (s : State) (pa v : Nat) : State :=
  s.bankWrite (clusterOfPa pa) (bankOfPa pa) (pa % 2 ^ 22) 1 v false false true
/-- The collective with every open tile frozen (R274). -/
def Coll.frozen (c : Coll) : Coll := { c with tiles := c.tiles.map CollTile.freeze }
/-- `n` free bytes as a number (R11, R205). -/
def freeBytesFrom (c : Nat) : Nat → Nat
  | 0 => 0
  | n + 1 => (Config.freeByte c).toNat + 256 * freeBytesFrom (c + 1) n
/-- Free values for `n` bytes of a tile, where its pages are resident (R11). -/
def State.freeTile (j : Job) : Nat → State → Word → Nat → State
  | 0, s, _, _ => s
  | fuel + 1, s, va, n =>
    if n = 0 then s
    else
      let k := Nat.min n (64 - va.toNat % 64)
      let c := chase s j.root va .write j.user
      let t := if c.x.st = .ok then
          { s with mem := storeBytes s.mem c.x.pa k (freeBytesFrom s.freeCount k), freeCount := s.freeCount + k
            }.recall (c.x.pa / 64)
        else s
      State.freeTile j fuel t (va + BitVec.ofNat 64 k) (n - k)
/-- The bank of the counters is retired, so that no counter can be written (R26). -/
def State.countersLost (s : State) (c : Coll) : Bool := c.version ≠ 0x0200 && s.inRetired c.cnt
/-- A job whose counters are lost ends: its open tiles are frozen, and RESULT holds the code of a destination that cannot be
written, which is the model's choice (R26, log entry 14). -/
def Coll.lost (c : Coll) : Coll := { c.frozen with result := if c.result = 0 then 0x0B else c.result }
/-- Some tile of a collective is open. -/
def Coll.isOpen (c : Coll) : Bool := c.tiles.any fun y => !y.fin
/-- Write every counter of a collective; a record of version 0x0200 keeps none (R270, R273). -/
def State.counterWrites (s : State) (c : Coll) : State :=
  if c.version = 0x0200 then s
  else (c.tiles.zipIdx).foldl (fun (s : State) (t, i) => s.counterWrite (c.cnt + i) t.byte) s
/-- The open tiles of a collective are frozen (R274); where its counters are lost, the collective ends (R26). -/
def State.freezeOpen (s : State) (j : Job) (c : Coll) : State × Coll :=
  if !c.isOpen then (s, c)
  else if s.countersLost c then (s.faultRecord 0x0B j.loc, c.lost)
  else (s.counterWrites c.frozen, c.frozen)
/-- A work with bank set `banks` ends: the open tiles of its collectives are frozen, as PCANCEL does; a COLL that has not
started keeps the bank set for its start (R274). -/
def State.cancelColls (s : State) (work : Nat) (banks : BitVec 64) : State :=
  (s.jobs.foldl (fun (s : State) j =>
    match j.kind with
    | .coll r c =>
      if j.work ≠ work then s
      else
        let q := match c with
          | some c => let q := s.freezeOpen j c; (q.1, some q.2)
          | none => (s, none)
        { q.1 with jobs := s.jobs.map fun (i : Job) =>
            if i.id = j.id then { i with kind := .coll r q.2, ended := some banks } else i }
    | _ => s) s).wakePlanes
/-- A region of a work that a command which the map unit has accepted still uses (R347). -/
def State.regionUsed (s : State) (work : Nat) (r : MapRegion) : Bool :=
  s.jobs.any fun j => j.work = work && j.started && (match j.kind with | .swb va _ => va = r.base | _ => false)
/-- The regions of an ending work are removed, counted and reported; commands already accepted complete (R347). -/
def State.dropRegions (s : State) (work loc : Nat) (rs : List MapRegion) : State :=
  rs.foldl (fun s _ => (State.faultRecord s 0 loc).count)
    { s with leftRegions := s.leftRegions ++ ((rs.filter (s.regionUsed work)).map fun r => (work, r)) }
/-- The acting context ends its work: regions go (R347), collectives close (R274), banks return (R80, R316), the
context is Idle, and the core goes to another. -/
def State.endContext (s : State) : State :=
  let c := s.me
  let s := (s.dropRegions c.work s.cur c.regions).cancelColls c.work c.banks
  let s := { s with me := Ctx.reset, workPts := Table.set 0 s.workPts c.work c.pts }
  (s.endWork c.work c.task).leaveCore s.cur s.cycle

/-! Jobs and copy commands (R187, R201, R202, R204). -/

/-- A barrier word (R207): the barrier's physical address in a cluster. -/
def barrierWord (cluster : Nat) (w : Word) : Option Nat :=
  match scratchWord w with
  | some (b, o) => if o % 16 = 0 && o < bankSize then some (scratchPa cluster b o) else none
  | none => none
/-- The cluster of the acting context. -/
def State.myCluster (s : State) : Nat := clusterOf s.cur
/-- Completion of a job: CKIND and CTGT of g3 or of a completion word (R202, R242); none where they are invalid. -/
def completionOf (cluster ckind ctgt : Nat) : Option Completion :=
  if ckind = 0 then
    (if ctgt % 16 = 0 && ctgt % 2 ^ 22 < bankSize then
      some (.barrier (scratchPa cluster (ctgt / 2 ^ 22 % 64) (ctgt % 2 ^ 22))) else none)
  else if ckind = 1 then (if ctgt < 4096 then some (.counter ctgt) else none)
  else none
/-- Enter a job of the acting context: it starts with the context's timestamp (R187). -/
def State.enterJob (s : State) (kind : JobKind) (domain : Nat) (foot : List FootRegion) (done : Completion)
    (seq : BitVec 16) : State :=
  let j : Job :=
    { id := s.nextId, kind := kind, loc := s.cur, work := s.me.work, task := s.me.task, root := s.me.ptroot
      user := !s.me.priv, wid := s.me.wid, pts := s.me.pts, seq := seq, domain := domain, foot := foot
      completion := done, started := false, pos := 0, failed := false, paused := false, request := none
      refused := false, done := [], src := [], quiesce := none, ending := none, ended := none, stale := [] }
  { s with nextId := s.nextId + 1, jobs := s.jobs ++ [j] }
/-- Take a copy sequence number (R204). -/
def State.nextSeq (s : State) : State := s.modMe fun c => { c with cseq := c.cseq + 1 }
/-- Bits that R202 names in g3 and the completion that they hold. -/
def geoCompletion (cluster : Nat) (g3 : Word) : Option Completion :=
  if bits g3.toNat 61 28 = 0 then completionOf cluster (bits g3.toNat 63 62) (bits g3.toNat 27 0) else none
/-- One end of a copy. -/
inductive CopyEnd where
  | scratch (bank off : Nat)
  | virt (va : Nat)
  deriving DecidableEq, Repr
/-- A copy end (R201). -/
def copyEnd (w : Word) : Option CopyEnd :=
  match scratchWord w with
  | some (b, o) => some (.scratch b o)
  | none => if w.toNat < 2 ^ 57 then some (.virt w.toNat) else none
/-- Bytes from the base of an end to the last byte that it touches (R202). -/
def copyExtent (g : Vector Word 8) (stride : Word) : Nat := bits g[0].toNat 47 32 * stride.toNat + bits g[0].toNat 31 0
/-- The footprint region of an end (R202). A scratchpad region counts in linear positions (R345). -/
def State.endRegion (s : State) (e : CopyEnd) (len : Nat) (write : Bool) : FootRegion :=
  match e with
  | .scratch b o => { scratch := true, space := s.myCluster, base := b * bankSize + o, len := len, write := write }
  | .virt va => { scratch := false, space := s.me.ptroot.toNat, base := va, len := len, write := write }
/-- Issue a copy command for the acting context (R204): it takes a sequence number, its job starts. -/
def State.issueCopy (s : State) (dst src : Word) (g : Vector Word 8) (de se : CopyEnd) (done : Completion) : State :=
  (s.enterJob (.copy dst src g) (bits g[4].toNat 15 0)
    [s.endRegion se (copyExtent g g[1]) false, s.endRegion de (copyExtent g g[2]) true] done s.me.cseq).nextSeq

/-! Save areas (R224, R225). -/

/-- Code and value of a latch record (R225). -/
def RegWrite.code : RegWrite → Nat
  | .scalar d _ _ => d.val
  | .vec d _ _ | .bits d _ _ => 0x40 + d.val
  | .mask d _ _ => 0x60 + d.val
  | .pred d _ => 0x70 + d.val
  | .scale d _ => 0x80 + d.val
  | .shape _ => 0x90
def RegWrite.poisoned : RegWrite → Bool
  | .scalar _ _ p => p
  | .vec .. | .bits .. | .mask .. | .pred .. | .scale .. | .shape _ => false
def RegWrite.selMap : RegWrite → Option MaskVal
  | .vec _ _ s => s
  | .mask _ _ s => s
  | .scalar .. | .pred .. | .scale .. | .shape _ | .bits .. => none
/-- Value bytes of a latch record: size and number (R225). -/
def RegWrite.image : RegWrite → Nat × Nat
  | .scalar _ v _ => (8, v.toNat)
  | .pred _ v => (1, b2n v)
  | .vec _ v _ | .bits _ v _ => (8192, v.toNat)
  | .mask _ v _ => (1024, v.toNat)
  | .scale _ v => (64, v.toNat)
  | .shape v => (8, v.toNat)
/-- Bits of VSHP that are no reserved bits (R377); what a handler writes to the others in an area is ignored (R9). -/
def vshpMask : Word := 0xFFF7F#64
/-- A latch record read back from an area. -/
def RegWrite.ofCode (code : Nat) (poison : Bool) (sel : Option MaskVal) (val : Nat) : Option RegWrite :=
  if code < 0x40 then some (.scalar (Fin.ofNat 64 code) (BitVec.ofNat 64 val) poison)
  else if code < 0x60 then some (.vec (Fin.ofNat 32 code) (BitVec.ofNat 65536 val) sel)
  else if code < 0x70 then some (.mask (Fin.ofNat 16 code) (BitVec.ofNat 8192 val) sel)
  else if code < 0x78 then some (.pred (Fin.ofNat 8 code) (val % 2 = 1))
  else if code < 0x80 then none
  else if code < 0x90 then some (.scale (Fin.ofNat 16 code) (BitVec.ofNat 512 val))
  else if code = 0x90 then some (.shape (BitVec.ofNat 64 val &&& vshpMask))
  else none

/-- A field of a save area: offset, bytes, value. -/
abbrev AreaField := Nat × Nat × Nat

/-- Registers of the area (R225). -/
def Regs.fields (r : Regs) : List AreaField :=
  [(0xF8, 8, r.vshp.toNat), (0x300, 8, r.sp.toNat), (0x308, 8, r.p.toNat)] ++
  (List.range 64).map (fun i => (0x100 + 8 * i, 8, (r.sget (Fin.ofNat 64 i)).toNat)) ++
  (List.range 16).map (fun i => (0xA00 + 64 * i, 64, (r.eget (Fin.ofNat 16 i)).toNat)) ++
  (List.range 16).map (fun i => (0x1000 + 1024 * i, 1024, (r.mget (Fin.ofNat 16 i)).toNat)) ++
  (List.range 32).map (fun i => (0x10000 + 8192 * i, 8192, (r.vget (Fin.ofNat 32 i)).toNat))
/-- The loop stack of the area: every slot is written (R225). -/
def loopFields (l : List LoopEntry) : List AreaField :=
  (0xD0, 8, l.length) :: (List.range 6).flatMap fun i =>
    match l[i]? with
    | some e => [(0x40 + 24 * i, 8, e.start.toNat), (0x48 + 24 * i, 8, e.stop.toNat),
        (0x50 + 24 * i, 8, e.remaining.toNat)]
    | none => [(0x40 + 24 * i, 24, 0)]
/-- Latch records, `due` their offsets (R214, R225). -/
def latchFields (l : List Flight) : List AreaField :=
  (l.zipIdx).flatMap fun (f, i) =>
    [(0x7F000 + 16 * i, 16, f.w.code + f.due % 64 * 256 + b2n f.w.poisoned * 2 ^ 14 +
        b2n f.w.selMap.isSome * 2 ^ 15),
      (0x80000 + 8192 * i, f.w.image.1, f.w.image.2)] ++
    (match f.w.selMap with
      | some m => [(0x50000 + 1024 * i, 1024, m.toNat)]
      | none => [])
/-- A withdrawn FA call (R304). -/
def faFields (c : Option FaCall) (code : FaFmt → Nat) : List AreaField :=
  match c with
  | none => []
  | some f =>
    (List.range 8).map (fun i => (0x8000 + 16 * i, 16, (f.params[i]?.getD 0).toNat)) ++
    [(0x8080, 1, f.routine), (0x8081, 1, code f.fmt), (0x8082, 2, f.beats),
      (0x8084, 1, code f.dyn + 16 * b2n f.dynSub), (0x8088, 8, f.efr.toNat), (0x8090, 8, f.fatab.toNat)]
/-- Format codes of R69. -/
def faFmtCode : FaFmt → Nat
  | .dynamic => 0 | .bf16 => 1 | .f16 => 2 | .e4m3 => 3 | .e5m2 => 4 | .e2m1 => 5 | .o8 => 6 | .o4 => 7
  | .mxf8 => 8 | .mxf6 => 9 | .mxf4 => 10 | .mxi8 => 11 | .e2m3 => 12 | .e3m2 => 13
def faFmtOf (n : Nat) : FaFmt :=
  match n with
  | 1 => .bf16 | 2 => .f16 | 3 => .e4m3 | 4 => .e5m2 | 5 => .e2m1 | 6 => .o8 | 7 => .o4 | 8 => .mxf8 | 9 => .mxf6
  | 10 => .mxf4 | 11 => .mxi8 | 12 => .e2m3 | 13 => .e3m2 | _ => .dynamic
/-- Reissue entries (R225, R228). -/
def reissueFields (l : List Withdrawn) : List AreaField :=
  (l.zipIdx).flatMap fun (j, i) =>
    [(0x8100 + 64 * i, 8, j.dst.toNat), (0x8108 + 64 * i, 8, j.src.toNat), (0x8138 + 64 * i, 8, j.seq.toNat)] ++
      (List.range 5).map fun k => (0x8110 + 64 * i + 8 * k, 8, (j.g[k]?.getD 0).toNat)
/-- The scratchpad address word of a barrier (R201, R228). -/
def barrierAddrWord (pa : Nat) : Nat := 2 ^ 60 + pa % 2 ^ 28
/-- Snapshots of the barriers of withdrawn commands: address word and BTEST word; 0 for a counter (R228). -/
def snapshotFields (l : List Withdrawn) : List AreaField :=
  (l.zipIdx).flatMap fun (j, i) =>
    match j.snapshot with
    | some (pa, w) => [(0xA000 + 16 * i, 8, barrierAddrWord pa), (0xA008 + 16 * i, 8, w.toNat)]
    | none => [(0xA000 + 16 * i, 16, 0)]

/-- What the target of a recorded transfer does, in bits [4:3] of the word of DLY and TK (log entry 13). -/
def TransferKind.code : TransferKind → Nat
  | .pops => 0 | .plain => 1 | .eret => 2
def TransferKind.ofCode (n : Nat) : TransferKind := match n with | 1 => .plain | 2 => .eret | _ => .pops

/-- Everything a save writes for the acting context (R225, R304). `reason` 0 trap, 1 pre-emption. -/
def saveFields (s : State) (reason cause addr : Nat) (latch : List Flight) : List AreaField :=
  let c := s.me
  let d := match c.delay with
    | some d => (d.left, b2n d.taken + 2 * d.kind.code, d.target.toNat)
    | none => (0, 0, 0)
  let pend (i : Nat) : Nat × Nat := match c.efrPend[i]? with | some e => (e.val.toNat, e.wait) | none => (0, 0)
  [(0x00, 8, 0x0300 + reason * 2 ^ 16 + latch.length * 2 ^ 24 + c.withdrawn.length * 2 ^ 32 +
      b2n c.faCall.isSome * 2 ^ 40 + b2n (c.gidx.getLsbD 63) * 2 ^ 41),
    (0x08, 8, cause), (0x10, 8, addr), (0x18, 8, c.pc.toNat), (0x20, 8, d.1 + 4 * d.2.1), (0x28, 8, d.2.2),
    (0x30, 8, (s.ctxid s.cur).toNat), (0x38, 8, c.gidx.toNat),
    (0xD8, 8, c.efr.toNat), (0xE0, 8, (pend 0).1), (0xE8, 8, (pend 1).1), (0xF0, 8, (pend 0).2 + 4 * (pend 1).2),
    (0x310, 8, c.srkey.toNat), (0x318, 8, c.srorg.toNat), (0x320, 8, c.fatab.toNat), (0x328, 8, c.memctl.toNat),
    (0x330, 8, c.cseq.toNat), (0x338, 8, c.tslate.toNat), (0x340, 8, c.dsdrop.toNat), (0x348, 8, c.lcnt.toNat),
    (0x350, 8, c.ceerr.toNat), (0x358, 8, c.pts.toNat), (0x360, 8, b2n c.priv),
    (0x368, 8, if c.priv then c.svcur.toNat else 0),
    (0x400, 8, c.banks.toNat), (0x408, 8, c.wid.toNat),
    (0x80A0, 8, faFmtCode c.faFmt + 16 * b2n c.faSub), (0x80A8, 8, c.fampst.toNat), (0x80B0, 80, 0)] ++
  (List.range 8).map (fun i => (0x800 + 16 * i, 16, (c.aShadow[i]?.getD 0).toNat)) ++
  (List.range 8).map (fun i => (0x880 + 8 * i, 8, (c.gShadow[i]?.getD 0).toNat)) ++
  loopFields c.loops ++ c.regs.fields ++ faFields c.faCall faFmtCode ++ reissueFields c.withdrawn ++
  snapshotFields c.withdrawn ++ latchFields latch

/-- A latch record names whole bytes (R225): the bits of a byte that a result leaves alone are those that the register
holds at the freeze (log entry 16). -/
def RegWrite.latch (r : Regs) (w : RegWrite) : RegWrite :=
  match w with
  | .bits d v sel =>
    let map := (List.range 8192).foldr
      (fun i acc => (if sel.toNat / 2 ^ (8 * i) % 256 = 0 then 0 else 1) + 2 * acc) 0
    .vec d (mergeBits sel r.v[d] v)
      (if BitVec.ofNat 8192 map = BitVec.allOnes 8192 then none else some (BitVec.ofNat 8192 map))
  | .scalar .. | .vec .. | .mask .. | .pred .. | .scale .. | .shape _ => w
/-- The freeze (R214): outstanding M0 accesses complete, results due by the cycle `cs` are written, the rest become
latch records with their offsets; strict-ECC traps that are due later keep their offsets likewise. What has become visible in
an interrupted engine wait, after the first issue of its bundle, becomes a record too (log entry 134). -/
def Ctx.freeze (c : Ctx) (cs : Nat) : Ctx × List Flight :=
  let c := (c.arrive cs).completeM0
  ({ c with inflight := [], latched := [], ecc := [], eccLatched := c.eccLatched ++ c.ecc.map (· - cs) },
    c.latched ++ c.inflight.map fun f => { f with due := f.due - cs, born := 0, w := f.w.latch c.regs })
/-- The oldest copy on its way reaches the host event ring in host memory: places follow in order, and a copy whose place the
host has not emptied, or for which no ring of 2^12 to 2^24 records is set up, is dropped and counted (R251, R262), and so is
every copy where the link has trained without CXL, so that no host address is reachable (R250). -/
def State.copyRecord (s : State) : State :=
  let m := s.mgmt
  match m.ring with
  | [] => s
  | r :: rest =>
    let n := m.ringSize.toNat
    let pa := 0x8000000000000 + m.ringBase.toNat + 64 * m.ringNext
    if !m.cxl || n < 12 || 24 < n || m.ringHeld.contains m.ringNext || 0x10000000000000 < pa + 64 then
      { s with mgmt := { m with ring := rest, ringDrops := m.ringDrops + 1 } }
    else
      ({ s with mgmt := { m with
          ring := rest, ringNext := (m.ringNext + 1) % 2 ^ n, ringHeld := m.ringHeld ++ [m.ringNext] }
        }.homeWrite 0 pa 64 r.toNat (some false)).1
/-- Address of area `i` of the pool of a cluster. -/
def areaPa (c : Cluster) (i : Nat) : Nat := c.svbase.toNat + i * 0x100000
/-- A free area of the pool of a cluster, if the pool exists (R216, R224). -/
def Cluster.freeArea (c : Cluster) : Option Nat :=
  if c.svbase = 0 then none else (List.range 32).find? fun i => !c.areas.getLsbD i
/-- Free areas of the pool of a cluster. -/
def Cluster.areasFree (c : Cluster) : Nat :=
  if c.svbase = 0 then 0 else (List.range 32).countP fun i => !c.areas.getLsbD i
/-- FREE of SVPOOL, saturating at 31 (R224). -/
def Cluster.freeCount (c : Cluster) : Nat := Nat.min 31 c.areasFree
/-- Bytes of a line of an area, from offset `o`, that a list of fields writes. -/
def coverage (fs : List AreaField) (o : Nat) : Nat :=
  fs.foldl (fun n f => n + (Nat.min (o + 64) (f.1 + f.2.1) - Nat.max o f.1)) 0
/-- Rows of 2 KiB of an area at `base` that a list of fields writes (R159). -/
def areaRows (base : Nat) (fs : List AreaField) : List Nat :=
  (List.range 512).filterMap fun r =>
    if fs.any fun f => f.1 < 2048 * (r + 1) && 2048 * r < f.1 + f.2.1 then some (base / 2048 + r) else none
/-- Write the acting context into area `i` of its cluster's pool, which is then taken: at the homes of its lines, as
`homeWrite` writes one (R175, R159, R252). Each line that it writes and that has been read or written before takes a
timestamp as at a store of the context; one that it writes whole loses its poison (R172). -/
def State.saveArea (s : State) (i reason cause addr : Nat) (latch : List Flight) : State :=
  let k := clusterOf s.cur
  let c := s.cluster k
  let base := areaPa c i
  let fs := saveFields s reason cause addr latch
  let inArea (line : Nat) : Bool :=
    base ≤ 64 * line && 64 * line < base + 0x100000 && 0 < coverage fs (64 * line - base)
  let mem := fs.foldl (fun m f => storeBytes m (base + f.1) f.2.1 f.2.2) s.mem
  let pts := s.lines.foldl (fun p e => if inArea e.1 then wmax p (e.2.rts + 1) else p) s.me.pts
  { s with
    mem := mem
    lines := s.lines.map fun (e : Nat × LineData) =>
      if inArea e.1 then
        (e.1, { e.2 with
          poison := e.2.poison && coverage fs (64 * e.1 - base) < 64, readCount := 0, wts := pts, rts := pts })
      else e
    hostLines := s.hostLines.filter fun l => !inArea l
    l2 := if inHbm base then s.l2.map fun (k : L2Line) => if inArea k.line then { k with stamp := s.homeTick } else k else s.l2
    rowStamps := if inHbm base then (areaRows base fs).foldl (fun t r => Table.set 0 t r s.homeTick) s.rowStamps
      else s.rowStamps
    me := { s.me with pts := pts }
    }.l1Give (fun k => k.excl && inArea k.line) |>.setCluster k { c with areas := c.areas ||| (1#32 <<< i) }

/-! Taking an exception and returning from it (R216, R217). -/

/-- The CAUSE word (R210). -/
def TrapInfo.word (t : TrapInfo) : Nat := t.cause + t.sub * 256 + t.slot * 2 ^ 24

/-- A work belongs to a task: it holds a context or is Saved. -/
def State.workOfTask (s : State) (work task : Nat) : Bool :=
  s.places.any (fun l => (s.ctx l).status ≠ .idle && (s.ctx l).work = work && (s.ctx l).task = task) ||
    s.saved.any fun v => v.work = work && v.task = task
/-- A relocation job of a work goes on (R235). -/
def Job.unpause (work : Nat) (j : Job) : Job :=
  match j.kind with
  | .reloc .. | .msweep .. | .reshard .. => if j.work = work then { j with paused := false } else j
  | .copy .. | .smap .. | .swb .. | .preq _ | .fampw _ | .task .. | .tdep .. | .coll .. => j
/-- A task has ended under R216: the joins of its spawned contexts end as if each target had halted (R349), and relocation
jobs of its pre-empted instances go on (R235). -/
def State.failTask (s : State) (task : Nat) : State :=
  let s' := { s with
    tasks := s.tasks.map fun (t : TaskInfo) => if t.id = task then { t with dead := true } else t
    jobs := s.jobs.map fun (j : Job) => if j.task = task then j.unpause j.work else j }
  s'.wake fun _ c =>
    match c.status with
    | .waiting (.join w) => if s.workOfTask w task then some .completes else none
    | _ => none
/-- The handle of a task (R193), which fault records carry (R216); 0 for a context that no launch started (log
entry 66). -/
def State.taskHandle (s : State) (task : Nat) : Nat :=
  match s.tasks.find? fun (t : TaskInfo) => t.id = task with | some t => t.handle | none => 0
/-- The acting context's task ends at a trap (R216). -/
def State.endTask (s : State) (t : TrapInfo) : State :=
  ((s.faultRecord (t.word + s.taskHandle s.me.task * 2 ^ 64)).failTask s.me.task).endContext
/-- The acting context traps with its pc at the saved PC, whose bundle issues at cycle `cs` (R216). In user mode with a
handler and a free area it is saved and starts at TVEC in privileged mode; otherwise its task ends. A member of a formed
gang stays in it, and the members run the handler under their lead; where the lead alone ends, since its cluster has no free
area, the others stay ganged and issue no more (log entry 65). What the context has pushed to operand FIFOs stays there
(R374). The bundle of a TRAP has committed, so that its end may be a point of R219. A context that the selector has chosen
and whose ended wait traps has issued no bundle since, so that a request acts at once (R219). -/
def trapEnter (s : State) (t : TrapInfo) (cs : Nat) : Host.Outcome State Fault Refusal :=
  let k := clusterOf s.cur
  let fr := s.me.freeze cs
  let chosen := s.me.unissued && (s.me.held.isSome || t.cause = 9)
  let s := { s with me := { fr.1 with held := none, woken := none }, issue := Issue.none }
  let s := if t.cause = 5 then s.faultRecord (t.word + t.gens.foldl (fun a g => a * 2 ^ 16 + g) 0 * 2 ^ 64) else s
  match (s.cluster k).freeArea with
  | some i =>
    if s.me.priv || s.tvec = 0 then .next (s.endTask t)
    else if s.noPa (areaPa (s.cluster k) i) then .fault .reservedAddress
    else
      let area := BitVec.ofNat 64 (areaPa (s.cluster k) i)
      let s := s.saveArea i 0 t.word t.addr.toNat fr.2
      let regs := (RegWrite.scalar 2 (BitVec.ofNat 64 t.word) false).apply
        ((RegWrite.scalar 1 area false).apply s.me.regs)
      .next { s with me := { s.me with
        svcur := area, loops := [], delay := none, priv := true, pc := s.tvec, regs := regs
        efrPend := [], eccLatched := [], eccLater := s.me.eccLatched, m0 := [], m0Later := s.me.m0
        atPoint := decide (t.cause = 9) && s.me.atPoint
        atGang := false, unissued := chosen, lastAt := s.cycle } }
  | none => .next (s.endTask t)

/-- Bits of EFR (R112), FATAB (R138), MEMCTL (R172), CEERR (R205), SVCUR (R222) and FAMPST (R305) that are no reserved
bits; what a handler writes to the others in an area is ignored (R9). -/
def efrMask : Word := 0xFF0F#64
def fatabMask : Word := 0x3FFFFF#64
def memctlMask : Word := 1#64
def ceerrMask : Word := 0x8000FF000000FFFF#64
def svcurMask : Word := 0xFFFFFFFF00000#64
def fampstMask : Word := 0x8000000000FF00FF#64
/-- Registers read back from an area. -/
def Regs.restore (m : List Host.Cell) (a : Nat) : Regs where
  s := (Vector.ofFn fun i : Fin 64 => BitVec.ofNat 64 (if i = 0 then 0 else loadBytes m (a + 0x100 + 8 * i.val) 8))
  sp := BitVec.ofNat 64 (loadBytes m (a + 0x300) 8) &&& ~~~1#64
  p := BitVec.ofNat 8 (loadBytes m (a + 0x308) 1) ||| 1#8
  v := Vector.ofFn fun i : Fin 32 => BitVec.ofNat 65536 (loadBytes m (a + 0x10000 + 8192 * i.val) 8192)
  m := Vector.ofFn fun i : Fin 16 =>
    BitVec.ofNat 8192 (if i = 0 then 0 else loadBytes m (a + 0x1000 + 1024 * i.val) 1024)
  e := Vector.ofFn fun i : Fin 16 => BitVec.ofNat 512 (loadBytes m (a + 0xA00 + 64 * i.val) 64)
  vshp := BitVec.ofNat 64 (loadBytes m (a + 0xF8) 8) &&& vshpMask
/-- Latch records read back from an area, `due` their offsets. A record names no slot: it counts as one of slot 0, so that
of two results to one register due in one cycle the newer prevails (R73, log entry 81). -/
def latchRestore (m : List Host.Cell) (a : Nat) : List Flight :=
  (List.range (Nat.min 64 (loadBytes m (a + 3) 1))).filterMap fun i =>
    let h := loadBytes m (a + 0x7F000 + 16 * i) 16
    let sel := if bits h 15 15 = 1 then some (BitVec.ofNat 8192 (loadBytes m (a + 0x50000 + 1024 * i) 1024)) else none
    (RegWrite.ofCode (bits h 7 0) (bits h 14 14 == 1) sel (loadBytes m (a + 0x80000 + 8192 * i) 8192)).map fun w =>
      { due := bits h 13 8, slot := 0, born := 0, w := w }
/-- The withdrawn call of an area (R304). -/
def faRestore (m : List Host.Cell) (a loc work : Nat) (user : Bool) (root : Word) : Option FaCall :=
  if bits (loadBytes m a 8) 40 40 = 0 then none
  else some
    { loc := loc, work := work, routine := loadBytes m (a + 0x8080) 1, fmt := faFmtOf (loadBytes m (a + 0x8081) 1)
      dyn := faFmtOf (loadBytes m (a + 0x8084) 1 % 16), dynSub := bits (loadBytes m (a + 0x8084) 1) 4 4 == 1
      beats := loadBytes m (a + 0x8082) 2
      params := Vector.ofFn fun i : Fin 8 => BitVec.ofNat 128 (loadBytes m (a + 0x8000 + 16 * i.val) 16)
      fatab := BitVec.ofNat 64 (loadBytes m (a + 0x8090) 8), efr := BitVec.ofNat 64 (loadBytes m (a + 0x8088) 8)
      descs := [], reissued := some { moved := false, loads := 0 }, dead := none, root := root, user := user
      pts := BitVec.ofNat 64 (loadBytes m (a + 0x358) 8), vec := 0, rows := [], poison := false, streaming := false }
/-- Restore a context from an area (R217, R221): every register and register copy, the loop stack, EFR with its
countdown, the delay bundles left, the latch records for delivery after the first bundle. That bits 1 and 0 of a PC which a
handler has edited are cleared, and those of the delay target and of the loop words are taken as they stand, is the model's
choice (log entry 83). -/
def Ctx.restore (c : Ctx) (m : List Host.Cell) (a loc : Nat) : Ctx :=
  let w (o : Nat) : Word := BitVec.ofNat 64 (loadBytes m (a + o) 8)
  let dly := loadBytes m (a + 0x20) 8
  let waits := loadBytes m (a + 0xF0) 8
  let depth := Nat.min 6 (loadBytes m (a + 0xD0) 8)
  { c with
    pc := w 0x18 &&& ~~~3#64
    delay := if bits dly 1 0 = 0 then none
      else some { left := bits dly 1 0, taken := bits dly 2 2 == 1, target := w 0x28
                  kind := TransferKind.ofCode (bits dly 4 3) }
    loops := (List.range depth).map fun i =>
      { start := w (0x40 + 24 * i), stop := w (0x48 + 24 * i), remaining := w (0x50 + 24 * i) }
    regs := Regs.restore m a
    aShadow := Vector.ofFn fun i : Fin 8 => BitVec.ofNat 128 (loadBytes m (a + 0x800 + 16 * i.val) 16)
    gShadow := Vector.ofFn fun i : Fin 8 => w (0x880 + 8 * i.val)
    efr := w 0xD8 &&& efrMask
    efrPend := (if bits waits 1 0 = 0 then [] else [{ val := w 0xE0 &&& efrMask, wait := bits waits 1 0 }]) ++
      (if bits waits 3 2 = 0 then [] else [{ val := w 0xE8 &&& efrMask, wait := bits waits 3 2 }])
    srkey := w 0x310, srorg := w 0x318, fatab := w 0x320 &&& fatabMask, memctl := w 0x328 &&& memctlMask
    cseq := (w 0x330).setWidth 16, tslate := (w 0x338).setWidth 32, dsdrop := (w 0x340).setWidth 32
    lcnt := (w 0x348).setWidth 28, ceerr := w 0x350 &&& ceerrMask, pts := wmax c.pts (w 0x358)
    banks := w 0x400, wid := (w 0x408).setWidth 16, fampst := w 0x80A8 &&& fampstMask
    faFmt := faFmtOf (loadBytes m (a + 0x80A0) 1 % 16), faSub := bits (loadBytes m (a + 0x80A0) 1) 4 4 == 1
    svcur := w 0x368 &&& svcurMask, priv := bits (loadBytes m (a + 0x360) 8) 0 0 == 1
    latched := latchRestore m a, inflight := [], ecc := []
    faCall := faRestore m a loc c.work (bits (loadBytes m (a + 0x360) 8) 0 0 == 0) c.ptroot }
/-- Issue the commands of an area's reissue list again, in order, with fresh sequence numbers (R217, R221, R228). They enter
whatever the copy engine and the footprint tracking hold (R204, log entry 108), and translate in the mode of the resumed
context, which an entry does not hold (log entry 138). An entry that is no command (a handler has edited it) ends with a
fault record (log entry 20). -/
def State.reissueCopies (s : State) (a : Nat) : State :=
  (List.range (Nat.min 64 (loadBytes s.mem (a + 4) 1))).foldl (fun (s : State) i =>
    let w (o : Nat) : Word := BitVec.ofNat 64 (loadBytes s.mem (a + 0x8100 + 64 * i + o) 8)
    let g : Vector Word 8 := #v[w 0x10, w 0x18, w 0x20, w 0x28, w 0x30, 0, 0, 0]
    match copyEnd (w 0), copyEnd (w 8), geoCompletion s.myCluster g[3] with
    | some de, some se, some done => s.issueCopy (w 0) (w 8) g de se done
    | _, _, _ => s.faultRecord 0 s.cur) s
/-- Free the area at an address, where it is one of the cluster's pool. -/
def State.freeAreaAt (s : State) (k pa : Nat) : State :=
  let c := s.cluster k
  let off := pa - c.svbase.toNat
  if c.svbase ≠ 0 && c.svbase.toNat ≤ pa && off / 0x100000 < 32 && off % 0x100000 = 0 then
    s.setCluster k { c with areas := c.areas &&& ~~~(1#32 <<< (off / 0x100000)) }
  else s
/-- What the re-issue of a withdrawn call finds of the array is kept with it (R148). -/
def FaCall.again (c : FaCall) (r : Reissue) : FaCall := { c with reissued := some r }
/-- ERET after its delay bundles (R217). The version trap names no syllable: slot 15, which no rule says (log entry 124). -/
def eretReturn (s : State) : Host.Outcome State Fault Refusal :=
  let a := s.me.svcur.toNat
  if s.noPa a then .fault .reservedAddress
  else if loadBytes s.mem a 2 ≠ 0x0300 then
    trapEnter s { cause := 0x0B, sub := 0x30, slot := 15, addr := 0 } (s.cycle + 1)
  else
    let c := s.me.restore s.mem a s.cur
    let s := { s with me := { c with
      priv := false, atPoint := c.loops.isEmpty, eccLatched := c.eccLater, eccLater := [], m0 := c.m0Later
      m0Later := []
      faCall := c.faCall.map fun (f : FaCall) => f.again { moved := false, loads := (s.core (coreOf s.cur)).fa.loads } } }
    .next ((s.reissueCopies a).freeAreaAt (clusterOf s.cur) a)

end Sys2Proof.Machine
end

