-- ==== Sys2Proof/Machine/Memory.lean ====
section
/-! DEFINITION. Fetch (R48), the lease-ordered line accesses of M0 (R175 to R177,
R181), poison (R171, R172), reads of the stacked layers (R21 to R26) and mapped regions (R155). -/

namespace Sys2Proof.Machine

/-! Fetch (R48). -/

/-- What fetch finds: the syllables up to the one whose L bit is set, or why there are none (R52); for a fault the
address that cannot be fetched. -/
inductive Fetched where
  | ok (ws : List Nat)
  | fault (va : Word)
  | noLast
  | hole
  deriving DecidableEq, Repr

/-- Fetch at most `fuel` syllables from an address. -/
def fetchFrom (s : State) (root : Word) (user : Bool) : Nat → Word → List Nat → Fetched
  | 0, _, _ => .noLast
  | fuel + 1, pc, acc =>
    let x := s.translate root pc .exec user
    match x.st with
    | .ok =>
      let w := s.portBytes true x.pa 4
      if w / 2 ^ 31 = 1 then .ok (acc ++ [w % 2 ^ 31]) else fetchFrom s root user fuel (pc + 4) (acc ++ [w])
    | .hole => .hole
    | .format | .absent | .protect | .chain => .fault pc
/-- Fetch the bundle at the pc of the acting context. -/
def State.fetch (s : State) : Fetched := fetchFrom s s.me.ptroot (!s.me.priv) 11 s.me.pc []

/-- Syllables of the bundle at an address (R48), where it can be fetched. -/
def State.bundleLen (s : State) (pc : Word) : Option Nat :=
  match fetchFrom s s.me.ptroot (!s.me.priv) 11 pc [] with
  | .ok ws => some ws.length
  | .fault _ | .noLast | .hole => none
/-- The address behind the bundle at `pc`. Where no whole bundle can be fetched the manual names no end: `pc` itself, so
that such a bundle counts no bytes (log entry 15). -/
def State.bundleEnd (s : State) (pc : Word) : Word := pc + BitVec.ofNat 64 (4 * (s.bundleLen pc).getD 0)

/-! Lines at their homes, in the L2 slices and in the L1s (R156 to R159, R175, R176). -/

/-- The stamp of the row of an address (R159). -/
def State.rowStamp (s : State) (pa : Nat) : Nat := Table.get 0 s.rowStamps (pa / 2048)
/-- Whether a read of an ephemeral line comes too late for its stamp (R159). -/
def State.expired (s : State) (e stamp : Nat) : Bool := leafEph e && stamp + Config.ephTicks ≤ s.homeTick
/-- The tower whose slice caches a line: that of its HBM, or tower 0 for a host line (R150, R156). -/
def sliceOf (line : Nat) : Nat := if inHbm (64 * line) then 64 * line / 0x1800000000 else 0
/-- A line is pinned in its slice (R157). -/
def State.pinned (s : State) (pa : Nat) : Bool := s.l2.any fun k => k.line = pa / 64 && k.pinned
/-- The stamp against which a read of a line is checked that its slice serves: that of the slice's copy, where the slice holds
one and the page of entry `e` lets it serve; else that of the row (R157, R159). -/
def State.sliceStamp (s : State) (e pa : Nat) : Nat :=
  match s.l2.find? fun k => k.line = pa / 64 && decide (leafHome e ≤ 1) with
  | some k => k.stamp
  | none => s.rowStamp pa
/-- Lines pinned in a slice. -/
def State.pins (s : State) (t : Nat) : Nat := s.l2.countP fun k => k.pinned && sliceOf k.line = t
/-- The HOME by which a line is served: a line of a HOME 0b01 page for which the slice has no room left among its pinned
lines is cached as HOME 0b00 (R157). -/
def State.homeOf (s : State) (e pa : Nat) : Nat :=
  if leafHome e = 1 && !s.pinned pa && Config.l2Pins ≤ s.pins (sliceOf (pa / 64)) then 0 else leafHome e
/-- A slice that is full evicts a line that is not pinned, by a free choice (log entry 8). The line keeps its read count
(R158, log entry 91). -/
def State.l2Room (s : State) (t : Nat) : State :=
  let held := s.l2.filter fun k => sliceOf k.line = t
  let l := held.filter fun k => !k.pinned
  if held.length < Config.l2Lines then s
  else
    match l[Config.choose s.freeCount % l.length]? with
    | some v => { s with l2 := s.l2.filter fun k => k.line ≠ v.line }.drawn
    | none => s
/-- An access allocates its line in the home slice, pinned for HOME 0b01; a line beyond the limit of the pinned ones is
counted (R157). -/
def State.l2Fill (s : State) (e pa : Nat) : State :=
  let line := pa / 64
  let held := s.l2.any fun k => k.line = line
  if !cacheable pa || 1 < leafHome e then s
  else if s.homeOf e pa = 1 then
    if s.pinned pa then s
    else
      let t : State := { s with l2 := s.l2.filter fun k => k.line ≠ line }.l2Room (sliceOf line)
      { t with l2 := t.l2 ++ [{
        line := line, pinned := true, dirty := s.l2.any (fun k => k.line = line && k.dirty), stamp := s.sliceStamp e pa }] }
  else if held then s
  else
    let t := s.l2Room (sliceOf line)
    { t with
      l2 := t.l2 ++ [{ line := line, pinned := false, dirty := false, stamp := s.rowStamp pa }]
      l2Demoted := if leafHome e = 1 then t.l2Demoted + 1 else t.l2Demoted }
/-- A read of a line counts against its expected read count; the read that brings it to zero ends the copy in the slice
(R158), but for a pinned line, which is never evicted (R157, log entry 102). -/
def State.countRead (s : State) (pa : Nat) : State :=
  let d := s.line pa
  if d.readCount = 0 then s
  else
    let t := s.setLine pa { d with readCount := d.readCount - 1 }
    if d.readCount = 1 then { t with l2 := t.l2.filter fun k => k.line ≠ pa / 64 || k.pinned } else t
/-- An L1 that is full evicts a line: one that only a PREF has filled, or else one by a free choice (log entry 8). -/
def State.l1Room (s : State) (core : Nat) : State :=
  let mine := s.l1.filter fun k => k.core = core
  if mine.length < Config.l1Lines then s
  else
    match mine.find? fun k => k.pref, mine[Config.choose s.freeCount % mine.length]? with
    | some v, _ => s.l1Drop core v.line
    | none, some v => (s.l1Drop core v.line).drawn
    | none, none => s
/-- An L1 takes a copy of a line in place of the one it has. -/
def State.l1Fill (s : State) (k : L1Copy) : State :=
  let t := (s.l1Drop k.core k.line).l1Room k.core
  { t with l1 := t.l1 ++ [k] }
/-- The instruction cache of a core takes a line from which it fetches (R15); a full one evicts a line by a free choice (log
entry 8). -/
def State.icacheFill (s : State) (core line : Nat) : State :=
  let mine := s.icache.filter fun k => k.1 = core
  if s.icache.contains (core, line) then s
  else if mine.length < Config.icacheLines then { s with icache := s.icache ++ [(core, line)] }
  else
    match mine[Config.choose s.freeCount % mine.length]? with
    | some v => { s with icache := s.icache.filter (fun k => k ≠ v) ++ [(core, line)] }.drawn
    | none => s
/-- The reads from which a bundle of `n` syllables is fetched, which lies in two lines at most: its tables and lines, where
they stand in a bank (R21, R157); the lines go into the instruction cache, and a line of an ephemeral page that comes too
late is counted (R159). -/
def State.fetchReads (s : State) (n : Nat) : State :=
  let vas : List Word := [s.me.pc, s.me.pc + BitVec.ofNat 64 (4 * (n - 1))]
  let ls := (vas.map fun va =>
    let x := s.translate s.me.ptroot va .exec (!s.me.priv)
    (x.pa / 64, s.expired x.e (s.sliceStamp x.e x.pa))).eraseDups
  let reads := vas.flatMap (s.tableLines s.me.ptroot) ++ (ls.map (·.1)).filter fun l => inBank (64 * l)
  ls.foldl (fun (t : State) l =>
    let u := t.icacheFill (coreOf t.cur) l.1
    if l.2 then u.count else u) (s.readLines reads.eraseDups)
/-- The reads of a fetch that finds no bundle (R52, R21): the syllables in front of `va` and, where `va` cannot be fetched,
the tables that say so. -/
def State.fetchFails (s : State) (va : Word) (tables : Bool) : State :=
  let t := if va = s.me.pc then s else s.fetchReads ((va - s.me.pc).toNat / 4)
  if tables then t.readLines (t.tableLines t.me.ptroot va) s.retired else t
/-- A fill that PREF starts (R332): a line that the L1 or the slice does not hold and has room for; no access finds another
value because of it. -/
def State.prefill (s : State) (core e pa : Nat) : State :=
  let line := pa / 64
  let h := s.homeOf e pa
  let inL2 := s.l2.any (fun k => k.line = line) ||
    Config.l2Lines ≤ s.l2.countP (fun k => sliceOf k.line = sliceOf line)
  let inL1 := s.l1.any (fun k => k.core = core && k.line = line) ||
    Config.l1Lines ≤ s.l1.countP (fun k => k.core = core)
  if !cacheable pa || 1 < h then s
  else
    { s with
      l2 := if inL2 || h ≠ leafHome e then s.l2 else s.l2 ++ [{ line := line, pinned := false, dirty := false, stamp := s.rowStamp pa }]
      l1 := if inL1 || h = 1 || (s.line pa).readCount ≠ 0 then s.l1
        else s.l1 ++ [{ core := core, line := line, data := 0, poison := false, wts := 0, rts := 0, filled := s.cycle
                        stamp := 0, pref := true, excl := false, dirty := false }] }

/-- What a line load gives: the line's 64 bytes, whether it is poisoned, the loader's timestamp. -/
structure LineRead where
  s : State
  data : Nat
  poison : Bool
  pts : Word

/-- A read at the home, renewing the lease (R175); `core` keeps a copy. A scratchpad line is read through its engine port
(R157, R21); `gone` are the banks retired before the access (R26). -/
def State.homeLoad (s : State) (core : Option Nat) (pts : Word) (e pa : Nat) (gone : List Nat := s.retired) : LineRead :=
  let line := pa / 64
  let d := s.line pa
  let rts := wmax d.rts (wmax (d.wts + BitVec.ofNat 64 Config.lease) (pts + BitVec.ofNat 64 Config.lease))
  let data := if cacheable pa then loadBytes s.mem (64 * line) 64 else s.portBytes true (64 * line) 64 gone
  let r := if cacheable pa then (s, d.poison) else s.portRead pa gone
  let stamp := s.sliceStamp e pa
  let s := (((r.1.setLine pa { r.1.line pa with rts := rts }).recall line).l2Fill e pa).countRead pa
  let s := match core with
    | none => s
    | some c =>
      s.l1Fill
        { core := c, line := line, data := BitVec.ofNat 512 data, poison := r.2, wts := d.wts, rts := rts
          filled := s.cycle, stamp := stamp, pref := false, excl := false, dirty := false }
  { s := s, data := data, poison := r.2, pts := wmax pts d.wts }
/-- A copy that serves a load of timestamp `pts` (R175, R176): its lease has not passed, and it is not too old unless the
L1 holds it exclusive. -/
def L1Copy.serves (k : L1Copy) (pts : Word) (cycle : Nat) : Bool :=
  !k.pref && pts ≤ k.rts && (k.excl || cycle < k.filled + Config.l1Age)
/-- Load() of R175 for an M0 access of core `core` to the page of entry `e`. A poisoned delivery is counted here, once for
each line that is read (R171, log entry 90). -/
def State.lineLoad (s : State) (core : Nat) (pts : Word) (e pa : Nat) (gone : List Nat := s.retired) : LineRead :=
  let line := pa / 64
  let cached := cacheable pa && s.homeOf e pa = 0 && (s.line pa).readCount = 0
  let r : LineRead × Nat :=
    match s.l1.find? fun k => k.core = core && k.line = line && k.serves pts s.cycle with
    | some k =>
      if cached then ({ s := s, data := k.data.toNat, poison := k.poison, pts := wmax pts k.wts }, k.stamp)
      else (s.homeLoad none pts e pa gone, s.sliceStamp e pa)
    | none => (s.homeLoad (if cached then some core else none) pts e pa gone, s.sliceStamp e pa)
  if s.expired e r.2 || r.1.poison then { r.1 with s := r.1.s.count, poison := true } else r.1

/-- The deterministic store rule at the home (R181): whether the write is dropped, and the line's writer after it. -/
def State.detDrops (s : State) (wid : BitVec 16) (e pa : Nat) : Bool :=
  s.detAct && inHbm pa && leafHome e ≤ 1 && decide (wid < (s.line pa).wid)
/-- Store() of R175 on bytes of one line, allocated in its slice, with the poison rule of R172 (`setP` a poisoned source,
`clrP` a whole unpoisoned line). The line keeps `wid` as its writer where R181 applies. `mask` are the bytes of the line that
a masked write of a whole line writes. -/
def State.lineStore (s : State) (pts : Word) (wid : Option (BitVec 16)) (e pa n val : Nat) (setP clrP : Bool)
    (mask : BitVec 64 := BitVec.allOnes 64) : State × Word :=
  let r := s.homeWrite pts pa n val (poisonEffect setP clrP) mask
  let d := r.1.line pa
  let w := match wid with
    | some w => if s.detAct && inHbm pa && leafHome e ≤ 1 then w else d.wid
    | none => d.wid
  ((r.1.setLine pa { d with wid := w }).l2Fill e pa, r.2)
/-- The L1 of a core holds a line that the core has stored to, exclusive and dirty, where the page is cached; else the slice
holds the new value, if it holds the line (R156, R157, R175). -/
def State.ownLine (s : State) (core e pa : Nat) : State :=
  let line := pa / 64
  let d := s.line pa
  if cacheable pa && s.homeOf e pa = 0 then
    s.l1Fill
      { core := core, line := line, data := BitVec.ofNat 512 (loadBytes s.mem (64 * line) 64), poison := d.poison
        wts := d.wts, rts := d.rts, filled := s.cycle, stamp := s.rowStamp pa, pref := false, excl := true
        dirty := true }
  else s.l2Mark line true
/-- A store-class write under R181: the state, the writer's timestamp, whether it was dropped. -/
def State.ruledStore (s : State) (pts : Word) (wid : BitVec 16) (e pa n val : Nat) (setP clrP : Bool)
    (mask : BitVec 64 := BitVec.allOnes 64) : State × Word × Bool :=
  if s.detDrops wid e pa then (s, pts, true)
  else
    let r := s.lineStore pts (some wid) e pa n val setP clrP mask
    (r.1, r.2, false)
/-- Count a dropped write in DSDROP (R181). -/
def Ctx.dropCounted (c : Ctx) : Ctx :=
  { c with dsdrop := if c.dsdrop = BitVec.allOnes 32 then c.dsdrop else c.dsdrop + 1 }

end Sys2Proof.Machine
end

