-- ==== Sys2Proof/Machine/Num.lean ====
section
/-! DEFINITION. Number formats and arithmetic (R103 to R118, R126): values are exact, each result is rounded once. -/

namespace Sys2Proof.Machine

/-- A floating format (R103): exponent and mantissa bits, bias, whether it has Inf and IEEE NaNs, whether it is E4M3. -/
structure Fmt where
  eb : Nat
  mb : Nat
  bias : Nat
  ieee : Bool
  e4m3 : Bool
  deriving DecidableEq, Repr

def fmtF32 : Fmt := { eb := 8, mb := 23, bias := 127, ieee := true, e4m3 := false }
def fmtF16 : Fmt := { eb := 5, mb := 10, bias := 15, ieee := true, e4m3 := false }
def fmtBf16 : Fmt := { eb := 8, mb := 7, bias := 127, ieee := true, e4m3 := false }
def fmtE4m3 : Fmt := { eb := 4, mb := 3, bias := 7, ieee := false, e4m3 := true }
def fmtE5m2 : Fmt := { eb := 5, mb := 2, bias := 15, ieee := true, e4m3 := false }
def fmtE2m3 : Fmt := { eb := 2, mb := 3, bias := 1, ieee := false, e4m3 := false }
def fmtE3m2 : Fmt := { eb := 3, mb := 2, bias := 3, ieee := false, e4m3 := false }
def fmtE2m1 : Fmt := { eb := 2, mb := 1, bias := 1, ieee := false, e4m3 := false }

/-- A value: NaN, a signed infinity, or the exact number ± m · 2^e. -/
inductive Val where
  | nan
  | inf (neg : Bool)
  | fin (neg : Bool) (m : Nat) (e : Int)
  deriving DecidableEq, Repr

/-- The value of an encoding (R103). -/
def Fmt.decode (f : Fmt) (w : Nat) : Val :=
  let m := w % 2 ^ f.mb
  let e := w / 2 ^ f.mb % 2 ^ f.eb
  let neg := w / 2 ^ (f.mb + f.eb) % 2 == 1
  if f.ieee && e = 2 ^ f.eb - 1 then (if m = 0 then .inf neg else .nan)
  else if f.e4m3 && e = 15 && m = 7 then .nan
  else if e = 0 then .fin neg m (1 - (f.bias : Int) - f.mb)
  else .fin neg (2 ^ f.mb + m) ((e : Int) - f.bias - f.mb)
/-- The canonical quiet NaN; +0 in a format without NaN (R41, R107). -/
def Fmt.nan (f : Fmt) : Nat :=
  if f.ieee then (2 ^ f.eb - 1) * 2 ^ f.mb + 2 ^ (f.mb - 1) else if f.e4m3 then 0x7F else 0
def Fmt.signBit (f : Fmt) (neg : Bool) : Nat := if neg then 2 ^ (f.eb + f.mb) else 0
/-- The encoding of the largest finite magnitude. -/
def Fmt.largest (f : Fmt) : Nat :=
  if f.ieee then (2 ^ f.eb - 1) * 2 ^ f.mb - 1 else if f.e4m3 then 0x7E else 2 ^ (f.eb + f.mb) - 1
/-- Overflow, or an infinite input (R107). -/
def Fmt.overflowed (f : Fmt) (neg sat : Bool) : Nat :=
  f.signBit neg +
    (if sat then f.largest
     else if f.ieee then (2 ^ f.eb - 1) * 2 ^ f.mb
     else if f.e4m3 then 0x7F else f.largest)

/-- A rounding mode with the bits it draws (R106). -/
inductive Mode where
  | rne
  | rz
  | rs (rnd : Nat)
  deriving DecidableEq, Repr

/-- m · 2^(-s) rounded to an integer (R106). -/
def roundShift (mode : Mode) (m s : Nat) : Nat :=
  let q := m / 2 ^ s
  let r := m % 2 ^ s
  match mode with
  | .rne => if 2 ^ s < 2 * r || (2 * r = 2 ^ s && q % 2 = 1) then q + 1 else q
  | .rz => q
  | .rs rnd => (m * 2 ^ 32 + rnd * 2 ^ s) / 2 ^ (s + 32)
/-- ⌊log2 m⌋ for m > 0. -/
def log2 (m : Nat) : Nat := Nat.log2 m
/-- m · 2^e rounded to an integer multiple of 2^u. -/
def roundUnit (mode : Mode) (m : Nat) (e u : Int) : Nat :=
  if u ≤ e then m * 2 ^ (e - u).toNat else roundShift mode m (u - e).toNat
/-- A finite number rounded and encoded (R105 to R107). -/
def Fmt.round (f : Fmt) (mode : Mode) (sat neg : Bool) (m : Nat) (e : Int) : Nat :=
  if m = 0 then f.signBit neg
  else
    let emin : Int := 1 - (f.bias : Int)
    let top : Int := (log2 m : Int) + e
    let u : Int := (if top < emin then emin else top) - f.mb
    let q := roundUnit mode m e u
    let u' := if q = 2 ^ (f.mb + 1) then u + 1 else u
    let q' := if q = 2 ^ (f.mb + 1) then 2 ^ f.mb else q
    if q' < 2 ^ f.mb then f.signBit neg + q'
    else
      let code := ((u' + f.mb + f.bias).toNat) * 2 ^ f.mb + (q' - 2 ^ f.mb)
      if f.largest < code then
        (match mode with | .rz => f.signBit neg + f.largest | _ => f.overflowed neg sat)
      else f.signBit neg + code
/-- Convert() of R106. -/
def Fmt.convert (f : Fmt) (mode : Mode) (sat : Bool) : Val → Nat
  | .nan => f.nan
  | .inf neg => f.overflowed neg sat
  | .fin neg m e => f.round mode sat neg m e
/-- RoundNearestEven to a format. -/
def Fmt.rne (f : Fmt) (v : Val) : Nat := f.convert .rne false v

/-! Exact arithmetic. -/

/-- The signed integer of a finite number at exponent `u ≤ e`. -/
def atExp (neg : Bool) (m : Nat) (e u : Int) : Int :=
  let k := (m * 2 ^ (e - u).toNat : Nat)
  if neg then -(k : Int) else k
/-- The number i · 2^u; `negZero` is the sign of an exact zero. -/
def ofInt (i : Int) (u : Int) (negZero : Bool) : Val :=
  if i = 0 then .fin negZero 0 u else .fin (decide (i < 0)) i.natAbs u
def Val.neg : Val → Val
  | .nan => .nan
  | .inf n => .inf (!n)
  | .fin n m e => .fin (!n) m e
def Val.abs : Val → Val
  | .nan => .nan
  | .inf _ => .inf false
  | .fin _ m e => .fin false m e
/-- Exact sum; an exact zero is +0 unless both are −0 (R105). -/
def Val.add : Val → Val → Val
  | .nan, _ => .nan
  | _, .nan => .nan
  | .inf a, .inf b => if a = b then .inf a else .nan
  | .inf a, .fin .. => .inf a
  | .fin .., .inf b => .inf b
  | .fin n m e, .fin n' m' e' =>
    let u := if e < e' then e else e'
    ofInt (atExp n m e u + atExp n' m' e' u) u (n && n')
/-- Exact product (R105). -/
def Val.mul : Val → Val → Val
  | .nan, _ => .nan
  | _, .nan => .nan
  | .inf a, .inf b => .inf (a != b)
  | .inf a, .fin n m _ => if m = 0 then .nan else .inf (a != n)
  | .fin n m _, .inf b => if m = 0 then .nan else .inf (n != b)
  | .fin n m e, .fin n' m' e' => .fin (n != n') (m * m') (e + e')
/-- Numeric order; none with a NaN (R311, R365). -/
def Val.lt : Val → Val → Option Bool
  | .nan, _ => none
  | _, .nan => none
  | .inf a, .inf b => some (a && !b)
  | .inf a, .fin .. => some a
  | .fin .., .inf b => some (!b)
  | .fin n m e, .fin n' m' e' =>
    let u := if e < e' then e else e'
    some (decide (atExp n m e u < atExp n' m' e' u))
def Val.eq (a b : Val) : Option Bool :=
  match a.lt b, b.lt a with
  | some x, some y => some (!x && !y)
  | _, _ => none
def Val.isNan : Val → Bool
  | .nan => true
  | .inf _ | .fin .. => false
def Val.isNeg : Val → Bool
  | .nan => false
  | .inf n | .fin n .. => n
/-- MAX (R105): NaN with a NaN, −0 below +0. -/
def Val.max (a b : Val) : Val :=
  match a.lt b, b.lt a with
  | some true, _ => b
  | some false, some true => a
  | some false, _ => if a.isNeg then b else a
  | none, _ => .nan
/-- MIN (R105). -/
def Val.min (a b : Val) : Val :=
  match a.lt b, b.lt a with
  | some true, _ => a
  | some false, some true => b
  | some false, _ => if a.isNeg then a else b
  | none, _ => .nan

/-- num / den · 2^0 with enough bits for one rounding: the quotient carries a sticky bit. -/
def quotient (neg : Bool) (num den : Nat) : Val :=
  let k := 128 + log2 den
  let q := num * 2 ^ k / den
  let sticky := if num * 2 ^ k % den = 0 then 0 else 1
  .fin neg (2 * q + sticky) (-(k : Int) - 1)
/-- Integer square root by bits. -/
def isqrtFrom : Nat → Nat → Nat → Nat
  | 0, _, r => r
  | b + 1, n, r => isqrtFrom b n (if (r + 2 ^ b) * (r + 2 ^ b) ≤ n then r + 2 ^ b else r)
/-- 1/sqrt(num/den) with a sticky bit, for one rounding. -/
def invSqrt (num den : Nat) : Val :=
  let n := den * 2 ^ 160 / num
  let r := isqrtFrom 100 n 0
  let sticky := if r * r = n && den * 2 ^ 160 % num = 0 then 0 else 1
  .fin false (2 * r + sticky) (-81)

/-! Integers. -/

/-- Bits as a signed integer of width `w`. -/
def sgn (w n : Nat) : Int :=
  let k := n % 2 ^ w
  if k < 2 ^ (w - 1) then k else (k : Int) - 2 ^ w
/-- An integer modulo 2^w. -/
def wrap (w : Nat) (i : Int) : Nat := (i % 2 ^ w).toNat
/-- A value rounded to an integer. -/
def roundInt (mode : Mode) : Val → Option Int
  | .nan => none
  | .inf _ => none
  | .fin n m e =>
    let q := roundUnit mode m e 0
    some (if n then -(q : Int) else q)
/-- Clamp to [lo, hi]. -/
def clampInt (lo hi i : Int) : Int := if i < lo then lo else if hi < i then hi else i
/-- Convert to an integer range, saturating; NaN gives 0 (R107). -/
def convertInt (mode : Mode) (lo hi : Int) (v : Val) : Int :=
  match v with
  | .nan => 0
  | .inf n => if n then lo else hi
  | .fin .. => clampInt lo hi ((roundInt mode v).getD 0)

/-! The random-bit hash (R126). -/

def rngHash (key coord : Word) : Word :=
  let st (h : Word) (k : Word) (sh : Nat) : Word :=
    let x := (h ^^^ key) * k
    x ^^^ (x >>> sh)
  st (st (st (st coord 0x9A3F5C21D7B4E86B#64 31) 0xE1C60F934B2DA5C7#64 27) 0x73D9B84E16A2F0C5#64 33)
    0xB56E2A17C9F38D4B#64 29
def rng32 (key coord : Word) : Nat := (rngHash key coord).toNat / 2 ^ 32
/-- A coordinate {row, column} offset by (r, c), each half modulo 2^32 (R108, R126). -/
def coordAt (org : Word) (r c : Nat) : Word :=
  BitVec.ofNat 64 ((org.toNat / 2 ^ 32 + r) % 2 ^ 32 * 2 ^ 32 + (org.toNat + c) % 2 ^ 32)
/-- The mode of a rounding modifier with the bits of a coordinate (R106, R108). -/
def modeOf (rm : Rounding) (key coord : Word) : Mode :=
  match rm with
  | .rne => .rne
  | .rz => .rz
  | .rs => .rs (rng32 key coord)

/-! O formats (R113 to R115). -/

/-- One element of an O4 pair: `c` its code, `h` the other's (R113). -/
def decodeO4 (signed outen : Bool) (subst : Int) (c h : Nat) : Val :=
  let res := if signed then 8 else 15
  let int (i : Int) : Val := ofInt i 0 false
  if outen && h = res && c ≠ res then int subst
  else if c ≠ res then int (if signed then sgn 4 c else c)
  else if !outen then int subst
  else if h = res then fmtE4m3.decode c
  else fmtE4m3.decode (h * 16 + c)
/-- One element of an O8 pair (R114). -/
def decodeO8 (signed outen : Bool) (subst : Int) (c h : Nat) : Val :=
  let res := if signed then 0x80 else 0xFF
  let int (i : Int) : Val := ofInt i 0 false
  if outen && h = res && c ≠ res then int subst
  else if c ≠ res then int (if signed then sgn 8 c else c)
  else if !outen then int subst
  else if h = res then fmtBf16.decode c
  else fmtBf16.decode (h * 256 + c)
/-- An element of an O format of width 4 or 8 under an EFR value. -/
def decodeO (efr : Word) (wide : Bool) (c h : Nat) : Val :=
  let signed := efr.getLsbD 0
  let outen := efr.getLsbD 2
  let subst := sgn 8 (efr.toNat / 256)
  if wide then decodeO8 signed outen subst c h else decodeO4 signed outen subst c h
/-- Convert into an O format: rounded, saturated to the range without the reserved code (R115). -/
def encodeO (efr : Word) (wide : Bool) (mode : Mode) (v : Val) : Nat :=
  let signed := efr.getLsbD 0
  let w := if wide then 8 else 4
  let hi : Int := if signed then 2 ^ (w - 1) - 1 else 2 ^ w - 2
  let lo : Int := if signed then -hi else 0
  wrap w (convertInt mode lo hi v)

/-! One exact sum of a cell (R116). -/

/-- RoundNearestEven of an exact sum of addends; an exact zero is −0 only when every addend is −0. -/
def sumRne (l : List Val) : Nat :=
  match l with
  | [] => 0
  | v :: rest => fmtF32.rne (rest.foldl Val.add v)

/-! Element formats of the vector unit (R60, R377). -/

/-- The element format of VSHP: a fmt code of R60, or u8. -/
inductive Elem where
  | flt (f : Fmt) (bytes : Nat)
  | int (bytes : Nat)
  | u8
  deriving DecidableEq, Repr

def Elem.bytes : Elem → Nat
  | .flt _ b => b
  | .int b => b
  | .u8 => 1
def vfmtElem : VFmt → Elem
  | .f32 => .flt fmtF32 4 | .bf16 => .flt fmtBf16 2 | .f16 => .flt fmtF16 2 | .e4m3 => .flt fmtE4m3 1
  | .e5m2 => .flt fmtE5m2 1 | .i32 => .int 4 | .i16 => .int 2 | .i8 => .int 1
/-- The element format of a VSHP word. -/
def shapeElem (vshp : Word) : Elem :=
  match bits vshp.toNat 19 16 with
  | 0 => .flt fmtF32 4 | 1 => .flt fmtBf16 2 | 2 => .flt fmtF16 2 | 3 => .flt fmtE4m3 1 | 4 => .flt fmtE5m2 1
  | 5 => .int 4 | 6 => .int 2 | 7 => .int 1 | _ => .u8
def shapeRows (vshp : Word) : Nat := bits vshp.toNat 6 0 + 1
def shapeCols (vshp : Word) : Nat := bits vshp.toNat 15 8 + 1
def shapeCount (vshp : Word) : Nat := shapeRows vshp * shapeCols vshp
/-- Bytes of the tile. -/
def shapeBytes (vshp : Word) : Nat := shapeCount vshp * (shapeElem vshp).bytes

/-- Element `i` of `b` bytes. -/
def elemAt (v : Nat) (b i : Nat) : Nat := v / 2 ^ (8 * b * i) % 2 ^ (8 * b)
/-- The elements of a tile. -/
def elems (v : VecVal) (b n : Nat) : List Nat := (List.range n).map fun i => elemAt v.toNat b i
/-- Put elements of `w` bits one after another. -/
def packBits (w : Nat) (l : List Nat) : Nat := l.foldr (fun x acc => x % 2 ^ w + acc * 2 ^ w) 0
/-- A select map, none when it names the whole register (R214). -/
def selMap (m : MaskVal) : Option MaskVal := if m = BitVec.allOnes 8192 then none else some m
/-- The byte select map of the elements of `b` bytes that a mask guard admits among `n`. -/
def selBytes (b n : Nat) (m : MaskVal) : Option MaskVal :=
  selMap (BitVec.ofNat 8192 (packBits b ((List.range n).map fun i => if m.getLsbD i then 2 ^ b - 1 else 0)))
/-- The bit select map of a mask result. -/
def selMask (n : Nat) (m : MaskVal) : Option MaskVal := selMap (m &&& BitVec.ofNat 8192 (2 ^ n - 1))

end Sys2Proof.Machine
end

