-- ==== Sys2Proof/Machine/Planes.lean ====
section
/-! DEFINITION. Plane collectives as data (R266, R268, R269, R272): contributors and consumers of a tile, tile exponents,
planes, prefixes. -/

namespace Sys2Proof.Machine

/-- ⌈log2 n⌉ for n up to 4096. -/
def ceilLog2 (n : Nat) : Nat := ((List.range 13).find? fun k => n ≤ 2 ^ k).getD 13
/-- Contributors of local destination tile `u` (R266). -/
def Coll.contributors (c : Coll) (u : Nat) : List Nat :=
  match c.op with
  | 0 | 1 => List.range c.members
  | 2 => [u / c.tileCount]
  | _ => [0]
/-- The other members that consume this module's tile `t`. -/
def Coll.consumers (c : Coll) (t : Nat) : List Nat :=
  let others := (List.range c.members).filter fun r => r ≠ c.rank
  if !c.contributes then []
  else if c.op = 1 then others.filter fun r => t % c.members = r
  else others
/-- Every other consumer has every local contribution or has cancelled it, or a mismatch has ended the collective (R268,
R274). -/
def Coll.delivered (c : Coll) : Bool :=
  c.told || c.result = 0x08 ||
    (List.range c.tileCount).all fun t => (c.consumers t).all fun r => c.cancels.contains (t, r)
def Coll.finished (c : Coll) : Bool := c.tiles.all fun t => t.fin

/-- The exponent of one value in ⌊log2 amax⌋; −150 for zero (R268). -/
def valExp : Val → Int
  | .fin _ m e => if m = 0 then -150 else (log2 m : Int) + e
  | .nan => -150
  | .inf _ => -150
/-- The tile exponent and the NaN-or-Inf flag (R268). -/
def tileHeader (vs : List (BitVec 32)) : Int × Bool :=
  vs.foldl (fun (e, sp) x =>
    let v := fmtF32.decode x.toNat
    (if e < valExp v then valExp v else e, sp || (match v with | .fin .. => false | .nan | .inf _ => true))) (-150, false)
/-- The common exponent E of a tile (R268). -/
def CollTile.common (t : CollTile) (n : Nat) : Int :=
  t.headers.foldl (fun e h => if e < h.2.1 then h.2.1 else e) (-150) + (ceilLog2 n : Nat)
/-- The magnitude |q| and the sign of a value (R268). -/
def encodeQ (p : Nat) (e : Int) (x : BitVec 32) : Nat × Bool :=
  match fmtF32.decode x.toNat with
  | .fin neg m u =>
    let k := u + (p : Int) - 1 - e
    (if 0 ≤ k then m * 2 ^ k.toNat else m / 2 ^ (-k).toNat, neg)
  | .nan | .inf _ => (0, false)
/-- The bits of a plane of a contributor: plane 0 holds the signs (log entry 17). -/
def CollTile.plane (t : CollTile) (r j : Nat) : Option Nat := (t.planes.find? fun x => x.1 = r && x.2.1 = j).map (·.2.2)
/-- The planes of a contributor from the sign plane on that are complete. -/
def CollTile.depth (t : CollTile) (p rank r : Nat) : Nat :=
  if r = rank then p
  else if (t.plane r 0).isNone then 0
  else ((List.range p).find? fun j => (t.plane r (j + 1)).isNone).getD p
/-- The magnitude of element `i` of a contributor with its low P − k bits cleared, and its sign. -/
def CollTile.prefixOf (t : CollTile) (p k rank : Nat) (e : Int) (r i : Nat) : Nat × Bool :=
  if r = rank then
    let q := encodeQ p e (((t.wholes.lookup r).getD [])[i]?.getD 0)
    (q.1 / 2 ^ (p - k) * 2 ^ (p - k), q.2)
  else
    ((List.range k).foldl (fun a j => a + ((t.plane r (j + 1)).getD 0) / 2 ^ i % 2 * 2 ^ (p - (j + 1))) 0,
      ((t.plane r 0).getD 0) / 2 ^ i % 2 == 1)
/-- Whether a tile is carried whole-value (R272). -/
def Coll.wholeTile (c : Coll) (t : CollTile) : Bool := c.whole || t.headers.any fun h => h.2.2
/-- The planes that can be applied to tile `u` (R269, R272). -/
def Coll.ready (c : Coll) (u : Nat) (t : CollTile) : Nat :=
  let cs := c.contributors u
  let p := c.planeCount
  if t.fin then t.k
  else if c.wholeTile t then (if cs.all fun r => (t.wholes.lookup r).isSome then p else t.k)
  else if cs.all fun r => t.headers.any fun h => h.1 = r then
    cs.foldl (fun a r => Nat.min a (t.depth p c.rank r)) p
  else t.k
/-- The first tile that planes can be applied to. -/
def Coll.pending (c : Coll) : Option Nat :=
  (c.tiles.zipIdx.find? fun x => !x.1.fin && x.1.k < c.ready x.2 x.1).map (·.2)
/-- The 256 elements of tile `u` at `k` planes (R269), or the exact sums of whole values (R272). -/
def Coll.tileValue (c : Coll) (u : Nat) (t : CollTile) (k : Nat) : List Nat :=
  let cs := c.contributors u
  let p := c.planeCount
  (List.range 256).map fun i =>
    if c.wholeTile t then
      sumRne (cs.map fun r => fmtF32.decode ((((t.wholes.lookup r).getD [])[i]?.getD 0).toNat))
    else
      let e := t.common cs.length
      let sum : Int := cs.foldl (fun a r =>
        let q := t.prefixOf p k c.rank e r i
        if q.2 then a - q.1 else a + q.1) 0
      fmtF32.rne (ofInt sum (e - p + 1) false)

end Sys2Proof.Machine
end

