-- ==== Sys2Proof/Machine/Operands.lean ====
section
/-! DEFINITION. Operands: the registers an instruction touches, guards, immediates, addresses, scratchpad address
words and barrier words (R277, R201, R207, R340). -/

namespace Sys2Proof.Machine

/-- The registers an instruction reads or writes, by the codes of R225: scalar from 0, vector from 0x40, mask from
0x60, predicate from 0x70. A syllable that touches the destination of an outstanding M0 access stalls (R71). -/
def instrTouches : Instr → List Nat
  | .add d a b g => [d.val, a.val, b.val, 0x70 + g.val]
  | .sub d a b g => [d.val, a.val, b.val, 0x70 + g.val]
  | .and d a b g => [d.val, a.val, b.val, 0x70 + g.val]
  | .or d a b g => [d.val, a.val, b.val, 0x70 + g.val]
  | .xor d a b g => [d.val, a.val, b.val, 0x70 + g.val]
  | .shl d a b g => [d.val, a.val, b.val, 0x70 + g.val]
  | .shr d a b g => [d.val, a.val, b.val, 0x70 + g.val]
  | .shra d a b g => [d.val, a.val, b.val, 0x70 + g.val]
  | .rot d a b g => [d.val, a.val, b.val, 0x70 + g.val]
  | .mul d a b g => [d.val, a.val, b.val, 0x70 + g.val]
  | .mulh d a b g => [d.val, a.val, b.val, 0x70 + g.val]
  | .div d a b g => [d.val, a.val, b.val, 0x70 + g.val]
  | .rem d a b g => [d.val, a.val, b.val, 0x70 + g.val]
  | .max d a b g => [d.val, a.val, b.val, 0x70 + g.val]
  | .min d a b g => [d.val, a.val, b.val, 0x70 + g.val]
  | .sel d a b p => [d.val, a.val, b.val, 0x70 + p.val]
  | .clz d a g => [d.val, a.val, 0x70 + g.val]
  | .popc d a g => [d.val, a.val, 0x70 + g.val]
  | .ext d a b g => [d.val, a.val, b.val, 0x70 + g.val]
  | .ins d a b g => [d.val, a.val, b.val, 0x70 + g.val]
  | .plog d a _ b g => [0x70 + d.val, 0x70 + a.val, 0x70 + b.val, 0x70 + g.val]
  | .fadd d a b g => [d.val, a.val, b.val, 0x70 + g.val]
  | .fmul d a b g => [d.val, a.val, b.val, 0x70 + g.val]
  | .ffma d a b g => [d.val, a.val, b.val, 0x70 + g.val]
  | .fcmpEq d a b g => [0x70 + d.val, a.val, b.val, 0x70 + g.val]
  | .fcmpLt d a b g => [0x70 + d.val, a.val, b.val, 0x70 + g.val]
  | .fcmpLe d a b g => [0x70 + d.val, a.val, b.val, 0x70 + g.val]
  | .fcmpUn d a b g => [0x70 + d.val, a.val, b.val, 0x70 + g.val]
  | .fcvt d a _ _ _ g => [d.val, a.val, 0x70 + g.val]
  | .tsread d g => [d.val, 0x70 + g.val]
  | .jr a g => [a.val, 0x70 + g.val]
  | .ret g => [0x70 + g.val, 63]
  | .cmpEq d a b g => [0x70 + d.val, a.val, b.val, 0x70 + g.val]
  | .cmpNe d a b g => [0x70 + d.val, a.val, b.val, 0x70 + g.val]
  | .cmpLt d a b g => [0x70 + d.val, a.val, b.val, 0x70 + g.val]
  | .cmpLe d a b g => [0x70 + d.val, a.val, b.val, 0x70 + g.val]
  | .cmpLtu d a b g => [0x70 + d.val, a.val, b.val, 0x70 + g.val]
  | .cmpLeu d a b g => [0x70 + d.val, a.val, b.val, 0x70 + g.val]
  | .nop g => [0x70 + g.val]
  | .halt g => [0x70 + g.val]
  | .eret g => [0x70 + g.val]
  | .lbrk g => [0x70 + g.val]
  | .addi d a _ => [d.val, a.val]
  | .andi d a _ => [d.val, a.val]
  | .ori d a _ => [d.val, a.val]
  | .xori d a _ => [d.val, a.val]
  | .li d _ => [d.val]
  | .lih d _ => [d.val]
  | .trap _ => []
  | .chk a _ => [a.val]
  | .sysr d _ => [d.val]
  | .sysw a _ => [a.val]
  | .loop c _ => [c.val]
  | .loopi _ _ => []
  | .cmpiEq d a _ => [0x70 + d.val, a.val]
  | .cmpiNe d a _ => [0x70 + d.val, a.val]
  | .cmpiLt d a _ => [0x70 + d.val, a.val]
  | .cmpiLe d a _ => [0x70 + d.val, a.val]
  | .cmpiLtu d a _ => [0x70 + d.val, a.val]
  | .cmpiLeu d a _ => [0x70 + d.val, a.val]
  | .br _ p _ => [0x70 + p.val]
  | .j _ => []
  | .call _ => [63]
  | .vadd d a b _ m => [0x40 + d.val, 0x40 + a.val, 0x40 + b.val, 0x60 + m.val]
  | .vsub d a b _ m => [0x40 + d.val, 0x40 + a.val, 0x40 + b.val, 0x60 + m.val]
  | .vmul d a b _ m => [0x40 + d.val, 0x40 + a.val, 0x40 + b.val, 0x60 + m.val]
  | .vfma d a b _ m => [0x40 + d.val, 0x40 + a.val, 0x40 + b.val, 0x60 + m.val]
  | .vmax d a b _ m => [0x40 + d.val, 0x40 + a.val, 0x40 + b.val, 0x60 + m.val]
  | .vmin d a b _ m => [0x40 + d.val, 0x40 + a.val, 0x40 + b.val, 0x60 + m.val]
  | .vabs d a _ m => [0x40 + d.val, 0x40 + a.val, 0x60 + m.val]
  | .vneg d a _ m => [0x40 + d.val, 0x40 + a.val, 0x60 + m.val]
  | .vand d a b _ m => [0x40 + d.val, 0x40 + a.val, 0x40 + b.val, 0x60 + m.val]
  | .vor d a b _ m => [0x40 + d.val, 0x40 + a.val, 0x40 + b.val, 0x60 + m.val]
  | .vxor d a b _ m => [0x40 + d.val, 0x40 + a.val, 0x40 + b.val, 0x60 + m.val]
  | .vshl d a b _ m => [0x40 + d.val, 0x40 + a.val, 0x40 + b.val, 0x60 + m.val]
  | .vshr d a b _ m => [0x40 + d.val, 0x40 + a.val, 0x40 + b.val, 0x60 + m.val]
  | .vsel d a b _ s => [0x40 + d.val, 0x40 + a.val, 0x40 + b.val, 0x60 + s.val]
  | .vmov d a _ m => [0x40 + d.val, 0x40 + a.val, 0x60 + m.val]
  | .vcvt d a _ _ _ m => [0x40 + d.val, 0x40 + a.val, 0x60 + m.val]
  | .vcmpEq d a b _ m => [0x60 + d.val, 0x40 + a.val, 0x40 + b.val, 0x60 + m.val]
  | .vcmpNe d a b _ m => [0x60 + d.val, 0x40 + a.val, 0x40 + b.val, 0x60 + m.val]
  | .vcmpLt d a b _ m => [0x60 + d.val, 0x40 + a.val, 0x40 + b.val, 0x60 + m.val]
  | .vcmpLe d a b _ m => [0x60 + d.val, 0x40 + a.val, 0x40 + b.val, 0x60 + m.val]
  | .vred d a _ _ m => [0x40 + d.val, 0x40 + a.val, 0x60 + m.val]
  | .vredc d a _ _ m => [0x40 + d.val, 0x40 + a.val, 0x60 + m.val]
  | .vscan d a _ _ m => [0x40 + d.val, 0x40 + a.val, 0x60 + m.val]
  | .vtrans d a _ m => [0x40 + d.val, 0x40 + a.val, 0x60 + m.val]
  | .vperm d a b _ m => [0x40 + d.val, 0x40 + a.val, 0x40 + b.val, 0x60 + m.val]
  | .vpack d a _ _ _ m => [0x40 + d.val, 0x40 + a.val, 0x60 + m.val]
  | .vunpk d a _ _ _ m => [0x40 + d.val, 0x40 + a.val, 0x60 + m.val]
  | .vexpd d a _ m => [0x40 + d.val, 0x40 + a.val, 0x60 + m.val]
  | .vpush _ a _ => [0x40 + a.val]
  | .mlog d a b _ m => [0x60 + d.val, 0x60 + a.val, 0x60 + b.val, 0x60 + m.val]
  | .vbcast d s m => [0x40 + d.val, s.val, 0x60 + m.val]
  | .viota d s m => [0x40 + d.val, s.val, 0x60 + m.val]
  | .vrngCo d s m => [0x40 + d.val, s.val, 0x60 + m.val, s.val + 1]
  | .vrngLc d s m => [0x40 + d.val, s.val, 0x60 + m.val]
  | .vcomp d a s m => [0x40 + d.val, 0x40 + a.val, s.val, 0x60 + m.val]
  | .vshape s => [s.val]
  | .mpop a s m => [0x60 + a.val, s.val, 0x60 + m.val]
  | .sfrcp d a _ _ m => [0x40 + d.val, 0x40 + a.val, 0x60 + m.val]
  | .sfrsq d a _ _ m => [0x40 + d.val, 0x40 + a.val, 0x60 + m.val]
  | .sfexp d a _ _ m => [0x40 + d.val, 0x40 + a.val, 0x60 + m.val]
  | .sflog d a _ _ m => [0x40 + d.val, 0x40 + a.val, 0x60 + m.val]
  | .sftanh d a _ _ m => [0x40 + d.val, 0x40 + a.val, 0x60 + m.val]
  | .sfsig d a _ _ m => [0x40 + d.val, 0x40 + a.val, 0x60 + m.val]
  | .sfsin d a _ _ m => [0x40 + d.val, 0x40 + a.val, 0x60 + m.val]
  | .sfcos d a _ _ m => [0x40 + d.val, 0x40 + a.val, 0x60 + m.val]
  | .ldI8 d b _ => [d.val, b.val, 0x77]
  | .ldU8 d b _ => [d.val, b.val, 0x77]
  | .ldI16 d b _ => [d.val, b.val, 0x77]
  | .ldI32 d b _ => [d.val, b.val, 0x77]
  | .ldI64 d b _ => [d.val, b.val, 0x77]
  | .pref b _ => [b.val]
  | .flush b _ => [b.val]
  | .ldsI8 d b _ => [d.val, b.val, 0x77]
  | .ldsU8 d b _ => [d.val, b.val, 0x77]
  | .ldsI16 d b _ => [d.val, b.val, 0x77]
  | .ldsI32 d b _ => [d.val, b.val, 0x77]
  | .ldsI64 d b _ => [d.val, b.val, 0x77]
  | .stI8 d b _ => [d.val, b.val]
  | .stI16 d b _ => [d.val, b.val]
  | .stI32 d b _ => [d.val, b.val]
  | .stI64 d b _ => [d.val, b.val]
  | .ldv v b m _ => [0x40 + v.val, b.val, 0x60 + m.val]
  | .stv v b m _ => [0x40 + v.val, b.val, 0x60 + m.val]
  | .vgather v b m _ x => [0x40 + v.val, b.val, 0x60 + m.val, 0x40 + x.val]
  | .vscatter v b m _ x => [0x40 + v.val, b.val, 0x60 + m.val, 0x40 + x.val]
  | .amoAddI64 d b _ => [d.val, b.val]
  | .amoAndI64 d b _ => [d.val, b.val]
  | .amoOrI64 d b _ => [d.val, b.val]
  | .amoXorI64 d b _ => [d.val, b.val]
  | .amoMinI64 d b _ => [d.val, b.val]
  | .amoMaxI64 d b _ => [d.val, b.val]
  | .amoSwapI64 d b _ => [d.val, b.val]
  | .amoCasI64 d b _ => [d.val, b.val, d.val + 1]
  | .ldI8Index d b x p => [d.val, b.val, x.val, 0x70 + p.val]
  | .ldU8Index d b x p => [d.val, b.val, x.val, 0x70 + p.val]
  | .ldI16Index d b x p => [d.val, b.val, x.val, 0x70 + p.val]
  | .ldI32Index d b x p => [d.val, b.val, x.val, 0x70 + p.val]
  | .ldI64Index d b x p => [d.val, b.val, x.val, 0x70 + p.val]
  | .prefIndex b x g => [b.val, x.val, 0x70 + g.val]
  | .ldsI8Index d b x p => [d.val, b.val, x.val, 0x70 + p.val]
  | .ldsU8Index d b x p => [d.val, b.val, x.val, 0x70 + p.val]
  | .ldsI16Index d b x p => [d.val, b.val, x.val, 0x70 + p.val]
  | .ldsI32Index d b x p => [d.val, b.val, x.val, 0x70 + p.val]
  | .ldsI64Index d b x p => [d.val, b.val, x.val, 0x70 + p.val]
  | .stI8Index d b x g => [d.val, b.val, x.val, 0x70 + g.val]
  | .stI16Index d b x g => [d.val, b.val, x.val, 0x70 + g.val]
  | .stI32Index d b x g => [d.val, b.val, x.val, 0x70 + g.val]
  | .stI64Index d b x g => [d.val, b.val, x.val, 0x70 + g.val]
  | .amoAddI32 d b _ => [d.val, b.val]
  | .amoAndI32 d b _ => [d.val, b.val]
  | .amoOrI32 d b _ => [d.val, b.val]
  | .amoXorI32 d b _ => [d.val, b.val]
  | .amoMinI32 d b _ => [d.val, b.val]
  | .amoMaxI32 d b _ => [d.val, b.val]
  | .amoSwapI32 d b _ => [d.val, b.val]
  | .amoCasI32 d b _ => [d.val, b.val, d.val + 1]
  | .sldI8 d _ _ => [d.val]
  | .sldU8 d _ _ => [d.val]
  | .sldI16 d _ _ => [d.val]
  | .sldI32 d _ _ => [d.val]
  | .sldI64 d _ _ => [d.val]
  | .sstI8 d _ _ => [d.val]
  | .sstI16 d _ _ => [d.val]
  | .sstI32 d _ _ => [d.val]
  | .sstI64 d _ _ => [d.val]
  | .sldv v _ _ => [0x40 + v.val]
  | .sstv v _ _ => [0x40 + v.val]
  | .sldt v _ _ => [0x40 + v.val]
  | .slds _ _ _ => []
  | .sldI8Regoff d _ x _ => [d.val, x.val]
  | .sldU8Regoff d _ x _ => [d.val, x.val]
  | .sldI16Regoff d _ x _ => [d.val, x.val]
  | .sldI32Regoff d _ x _ => [d.val, x.val]
  | .sldI64Regoff d _ x _ => [d.val, x.val]
  | .sstI8Regoff d _ x _ => [d.val, x.val]
  | .sstI16Regoff d _ x _ => [d.val, x.val]
  | .sstI32Regoff d _ x _ => [d.val, x.val]
  | .sstI64Regoff d _ x _ => [d.val, x.val]
  | .sldvRegoff v _ x _ => [0x40 + v.val, x.val]
  | .sstvRegoff v _ x _ => [0x40 + v.val, x.val]
  | .sldtRegoff v _ x _ => [0x40 + v.val, x.val]
  | .sldsRegoff _ _ x _ => [x.val]
  | .cpy d s g => [d.val, s.val, 0x70 + g.val]
  | .cegeo a b _ g => [a.val, b.val, 0x70 + g.val]
  | .fapar a b _ g => [a.val, b.val, 0x70 + g.val]
  | .facall _ _ _ => []
  | .fawait g => [0x70 + g.val]
  | .fastat d g => [d.val, 0x70 + g.val]
  | .fafmt _ _ g => [0x70 + g.val]
  | .fampw a t g => [a.val, t.val, 0x70 + g.val]
  | .binit t n g => [t.val, n.val, 0x70 + g.val]
  | .bexp t b g => [t.val, b.val, 0x70 + g.val]
  | .barv t g => [t.val, 0x70 + g.val]
  | .btest d t g => [d.val, t.val, 0x70 + g.val]
  | .bwait t _ g => [t.val, 0x70 + g.val]
  | .bankgive t m _ g => [t.val, m.val, 0x70 + g.val]
  | .spawn t e blk g => [t.val, e.val, 0x70 + g.val] ++ (List.range 8).map (8 * blk.val + ·)
  | .spawnJoin t g => [t.val, 0x70 + g.val]
  | .task r q g => [r.val, q.val, 0x70 + g.val]
  | .tdep h _ g => [h.val, 0x70 + g.val]
  | .gang n => [n.val]
  | .gend => []
  | .tswait s g => [s.val, 0x70 + g.val]
  | .smap v w g => [v.val, w.val, 0x70 + g.val]
  | .sunmap t v g => [t.val, v.val, 0x70 + g.val]
  | .swb t v g => [t.val, v.val, 0x70 + g.val]
  | .preq a t g => [a.val, t.val, 0x70 + g.val]
  | .reloc d s g => [d.val, s.val, 0x70 + g.val]
  | .msweep b len g => [b.val, len.val, 0x70 + g.val]
  | .rsgo a c g => [a.val, c.val, 0x70 + g.val]
  | .rsprog d a g => [d.val, a.val, 0x70 + g.val]
  | .coll a c g => [a.val, c.val, 0x70 + g.val]
  | .pcnt d t g => [d.val, t.val, 0x70 + g.val]
  | .pwait t _ g => [t.val, 0x70 + g.val]
  | .pcancel t n g => [t.val, n.val, 0x70 + g.val]
  | .fenceEng g => [0x70 + g.val]
  | .fenceSys g => [0x70 + g.val]
  | .tlbinvAll g => [0x70 + g.val]
  | .tlbinvVa a len g => [a.val, len.val, 0x70 + g.val]
  | .tlbinvAs a g => [a.val, 0x70 + g.val]
  | _ => []
/-- The guard of a syllable with a guard field (R277). -/
def instrGuard : Instr → Option PReg
  | .add _ _ _ g | .sub _ _ _ g | .and _ _ _ g | .or _ _ _ g | .xor _ _ _ g | .shl _ _ _ g | .shr _ _ _ g
  | .shra _ _ _ g | .rot _ _ _ g | .mul _ _ _ g | .mulh _ _ _ g | .div _ _ _ g | .rem _ _ _ g | .max _ _ _ g
  | .min _ _ _ g | .clz _ _ g | .popc _ _ g | .ext _ _ _ g | .ins _ _ _ g | .plog _ _ _ _ g | .fadd _ _ _ g
  | .fmul _ _ _ g | .ffma _ _ _ g | .fcmpEq _ _ _ g | .fcmpLt _ _ _ g | .fcmpLe _ _ _ g | .fcmpUn _ _ _ g
  | .fcvt _ _ _ _ _ g | .tsread _ g | .jr _ g | .ret g | .cmpEq _ _ _ g | .cmpNe _ _ _ g | .cmpLt _ _ _ g
  | .cmpLe _ _ _ g | .cmpLtu _ _ _ g | .cmpLeu _ _ _ g | .nop g | .halt g | .eret g | .lbrk g | .prefIndex _ _ g
  | .stI8Index _ _ _ g | .stI16Index _ _ _ g | .stI32Index _ _ _ g | .stI64Index _ _ _ g | .cpy _ _ g
  | .cegeo _ _ _ g | .fapar _ _ _ g | .fawait g | .fastat _ g | .fafmt _ _ g | .fampw _ _ g | .binit _ _ g
  | .bexp _ _ g | .barv _ g | .btest _ _ g | .bwait _ _ g | .bankgive _ _ _ g | .spawn _ _ _ g | .spawnJoin _ g
  | .task _ _ g | .tdep _ _ g | .tswait _ g | .smap _ _ g | .sunmap _ _ g | .swb _ _ g | .preq _ _ g | .reloc _ _ g
  | .msweep _ _ g | .rsgo _ _ g | .rsprog _ _ g | .coll _ _ g | .pcnt _ _ g | .pwait _ _ g | .pcancel _ _ g
  | .fenceEng g | .fenceSys g | .tlbinvAll g | .tlbinvVa _ _ g | .tlbinvAs _ g => some g
  | _ => none
/-- A syllable whose guard, read in the old registers, is false: it writes no register and raises nothing (R277). -/
def Regs.idle (r : Regs) (i : Instr) : Bool := match instrGuard i with | some g => !r.pget g | none => false

/-! Guards and operands of the acting context. -/

/-- Scalar operand. -/
def State.rs (s : State) (i : SReg) : Word := s.me.regs.sget i
def State.rp (s : State) (i : SReg) : Bool := s.me.regs.poison i
def State.pr (s : State) (i : PReg) : Bool := s.me.regs.pget i
def State.rv (s : State) (i : VReg) : VecVal := s.me.regs.vget i
def State.rm (s : State) (i : MReg) : MaskVal := s.me.regs.mget i
/-- The mask of a 3-bit mask guard (R59). -/
def State.rg (s : State) (i : MGuard) : MaskVal := s.me.regs.mget (Fin.castLE (by decide) i)
/-- The effect of a syllable under its guard: with a false guard it only occupies its slot (R277). -/
def guarded (g : PReg) (s : State) (f : State → State) : State := if s.pr g then f s else s
/-- A signed immediate as a 64-bit word. -/
def immW (i : Int) : Word := BitVec.ofInt 64 i

def State.bankOwned (s : State) (b : Nat) : Bool := s.me.banks.getLsbD b
def State.bankRetired (s : State) (b : Nat) : Bool := s.retired.contains (64 * s.myCluster + b)
/-- The bank ownership fault of an access to [off, off + n) of a bank, with the order of R340. -/
def State.bankFault (s : State) (b off n : Nat) : Option Nat :=
  if !s.bankOwned b then some 1 else if s.bankRetired b then some 3 else if bankSize < off + n then some 2 else none
end Sys2Proof.Machine
end

