-- ==== Sys2Proof/Machine/Settle.lean ====
section
/-! DEFINITION. How a bundle ends: the M0 stall that keeps one from issuing (R71, R316), the traps, waits and holds its
syllables record (R87, R211, R381), and its commit as a whole (R212 to R214). -/

namespace Sys2Proof.Machine

/-! Gangs of a task (R93). -/

/-- The members of a task's launched gang, lead first. -/
def State.gangOf (s : State) (task : Nat) : List Nat :=
  let ms := s.places.filter fun l =>
    let c := s.ctx l
    c.status ≠ .idle && c.task = task && c.gidx.getLsbD 63
  (List.range 64).flatMap fun k => ms.filter fun l => bits (s.ctx l).gidx.toNat 5 0 = k
/-- The members of the acting context's launched gang. -/
def State.gangMembers (s : State) : List Nat := s.gangOf s.me.task

/-- A formed gang for which the acting context issues as its lead; none for a context that issues for itself. -/
def State.issuers (s : State) : List Nat := if s.me.ganged then s.gangMembers else []

/-! The M0 stall. -/

/-- Destinations an outstanding M0 access still holds. -/
def Outstanding.codes (o : Outstanding) : List Nat :=
  (o.writes.filterMap fun w => if [0, 0x60, 0x70].contains w.code then none else some w.code) ++
    (match o.base with | some b => [b.val] | none => [])
/-- The destinations whose first use takes the strict-ECC trap of an outstanding load: its data registers (R172); the
residency predicate or mask only stalls. -/
def Outstanding.eccCodes (o : Outstanding) : List Nat := if o.ecc then o.codes.filter (· < 0x60) else []
/-- A syllable reads or writes a data register of an outstanding load; one whose guard is false does not (R172, R277). -/
def Outstanding.usedBy (o : Outstanding) (r : Regs) (y : Nat × Instr) : Bool :=
  !r.idle y.2 && o.eccCodes.any (instrTouches y.2).contains
/-- The outstanding accesses that the syllables of a bundle touch (R71), also those whose guard is false: that a syllable which
writes no register (R277) still stalls is the model's choice (log entry 118). -/
def touched (c : Ctx) (syls : List (Nat × Instr)) : List Outstanding :=
  c.m0.filter fun o => o.codes.any fun k => syls.any fun y => (instrTouches y.2).contains k
/-- A HALT of the bundle whose guard is true: it waits for the loads and atomics of the context (R316). -/
def Ctx.halts (c : Ctx) (syls : List (Nat × Instr)) : Bool :=
  syls.any fun y => match y.2 with | .halt g => c.regs.pget g | _ => false
/-- The first cycle at which no touched access is outstanding (R71), nor, for a HALT, any load or atomic (R316), if later
than now. -/
def stallUntil (c : Ctx) (cycle : Nat) (syls : List (Nat × Instr)) : Option Nat :=
  let l := touched c syls ++ if c.halts syls then c.m0.filter (·.base.isNone) else []
  let d := (l.filter fun o => !o.written).foldl (fun a o => Nat.max a o.due) 0
  if cycle < d then some d else none
/-- The end of the M0 stall of a bundle that comes to issue at `cycle`, in a gang of the stall of any member (R71, R95); a
HALT has the guard that stands then. -/
def State.stallEnd (s : State) (syls : List (Nat × Instr)) (cycle : Nat) : Nat :=
  (s.cur :: s.issuers).foldl
    (fun a l => Nat.max a ((stallUntil ((s.ctx l).arrive cycle) cycle syls).getD 0)) cycle
/-- The cycle at which the bundle at the pc of the acting context issues, if it comes to issue at `cycle`: the stall puts it
off (R71, R214), twice where a load that ends it sets the guard of a HALT (R316). -/
def State.issueFrom (s : State) (cycle : Nat) : Nat :=
  match s.fetch with
  | .ok ws =>
    let b := decodeBundle s.me.delay.isSome ws
    s.stallEnd b.syls (s.stallEnd b.syls cycle)
  | .hole | .fault _ | .noLast => cycle

/-- The cycle at which the bundle at the pc would issue that nothing but its turn keeps from issuing at `cycle`: later where
a switch of its core or the cycle after a TSWAIT puts it off (R89, R100), in a gang those of any member (R95), then where an
M0 stall does (R71). When a context that is not on its core would get it, no rule says: the model counts no time for that
(log entry 116). -/
def State.wouldIssue (s : State) (cycle : Nat) : Nat :=
  s.issueFrom ((s.cur :: s.issuers).foldl (fun a l =>
    let k := s.core (coreOf l)
    Nat.max a (Nat.max (s.ctx l).nextAt (if k.current = some (Fin.ofNat 4 l) then k.notBefore else 0))) cycle)

/-! Settling a bundle. -/

/-- The order in which one condition of a bundle is reported before another (R211). -/
def TrapInfo.rank (t : TrapInfo) : Nat :=
  if t.cause = 1 then t.sub else if t.cause = 2 then 0x100 else 0x101 + t.slot
/-- Record a trap of the syllable in issue, unless an earlier one stands before it (R211). -/
def State.trapAt (s : State) (slot cause sub : Nat) (addr : Word) : State :=
  let t : TrapInfo := { cause := cause, sub := sub, slot := s.slotOr slot, addr := addr }
  match s.issue.trap with
  | some u => if t.rank < u.rank then { s with issue := { s.issue with trap := some t } } else s
  | none => { s with issue := { s.issue with trap := some t } }
/-- Record the mark-chain fault of an M0 access (R237): the address of the fourth mark and the GEN of each mark. -/
def State.chainTrap (s : State) (addr : Word) (gens : List Nat) : State :=
  let t : TrapInfo := { cause := 5, sub := 1, slot := s.slotOr 6, addr := addr, gens := gens }
  match s.issue.trap with
  | some u => if t.rank < u.rank then { s with issue := { s.issue with trap := some t } } else s
  | none => { s with issue := { s.issue with trap := some t } }
/-- Lines of banks from which the syllable in issue reads what a trap or a wait of it rests on (R21). -/
def State.checking (s : State) (l : List Nat) : State :=
  { s with issue := { s.issue with checks := s.issue.checks ++ l } }
/-- Record that no memory answers at an address that the bundle needs. -/
def State.fatalAddress (s : State) : State := { s with issue := { s.issue with fatal := some .reservedAddress } }
/-- Record an engine wait of the syllable in issue (R87, R381). Of two waiting syllables of a bundle that of the lower slot
waits first; the other is tested after it (log entry 96). -/
def State.waitFor (s : State) (slot : Nat) (i : Instr) (w : Wait) : State :=
  { s with issue := { s.issue with
      wait := some (s.issue.wait.getD w)
      syls := if s.issue.multi then s.issue.syls else [(slot, i)] } }
/-- Record an issue hold: the bundle has not issued (R87). -/
def State.holdIssue (s : State) : State := { s with issue := { s.issue with hold := true } }

/-- Whether an ownership-table entry matches an address (R167, R168). -/
def aroMatches (e : BitVec 128) (va : Nat) : Bool :=
  let n := e.toNat
  let l := bits n 81 76
  let base := bits n 56 21 * 2 ^ 21
  bits n 127 127 == 1 && 21 ≤ l && l ≤ 57 && base % 2 ^ l == 0 && base ≤ va && va < base + 2 ^ l
/-- The home module of an address: the matching entry of lowest index, or this module (R167). -/
def State.homeModule (s : State) (va : Nat) : Nat :=
  match s.aroTable.toList.find? fun e => aroMatches e va with
  | some e => bits e.toNat 75 64
  | none => s.module.toNat
/-- Send a page request to the fault service core of the page's home module (R167, R169). A record for another module takes no
flit of its link and waits where the link is lost, which no rule says (log entry 130). -/
def State.requestPage (s : State) (va root : Word) (job loc : Option Nat) : Nat × State :=
  let r : PageRequest :=
    { id := s.nextId, va := va, root := root, home := s.homeModule va.toNat, job := job, loc := loc }
  (r.id, { s with nextId := s.nextId + 1, requests := s.requests ++ [r] })

/-- Enter an engine wait: the bundle's operands are held, none of its slots has committed (R381). A gang member keeps
its core (R94). -/
def State.enterWait (s : State) (i : Issue) (w : Wait) : State :=
  let s := { s with issue := Issue.none, me := { s.me with
    status := .waiting w, woken := none
    held := some (match s.me.held with
      | some h => { h with wait := w, ended := i.ended }
      | none => { first := s.cycle, syls := i.syls, len := i.len, regs := s.me.regs, reads := i.reads, wait := w
                  ended := [] })
    unissued := false, lastAt := s.cycle } }
  let s := match w with
    | .page va => (s.requestPage va s.me.ptroot none (some s.cur)).2
    | .barrier .. | .fa | .planes .. | .timeStep _ | .join _ => s
  if s.me.ganged then s else s.leaveCore s.cur s.cycle
/-- A poisoned load under MEMCTL.STRICT has not yet trapped (R172). -/
def Ctx.owesEcc (c : Ctx) : Bool := c.m0.any (·.ecc) || c.ecc ≠ [] || c.eccLatched ≠ []
/-- The strict-ECC traps that a context owes are taken. -/
def Ctx.payEcc (c : Ctx) : Ctx :=
  { c with ecc := [], eccLatched := [], m0 := c.m0.map fun o => { o with ecc := false } }
/-- The trap that HALT raises for them (R316), at slot 15, which no rule says (log entry 137). -/
def haltTrap : TrapInfo := { cause := 0x08, sub := 1, slot := 15, addr := 0 }
/-- The work of the acting context ends at HALT (R316) or, for a gang member, at GEND (R98): results in flight and
pending EFR writes are discarded. A SYSW of the last bundle binds: the registers of the module and of the cluster keep it
(R353). -/
def State.quit (s : State) : State :=
  let t := s.applySysw
  ({ t with issue := Issue.none, me := { t.me with inflight := [], efrPend := [] } }).endContext
/-- HALT (R316): a strict-ECC trap that is still due is taken; otherwise the work ends. -/
def haltContext (s0 s : State) : Host.Outcome State Fault Refusal :=
  if s0.me.owesEcc then trapEnter { s0 with me := s0.me.payEcc } haltTrap s0.cycle else .next s.quit
/-- The first cycle of the next bundle: 4 cycles after the boundary that ends a TSWAIT (R100). -/
def Issue.nextCycle (i : Issue) (cycle : Nat) : Nat :=
  if i.ended.any fun w => (match w with | .timeStep _ => true | _ => false) then cycle + 4 else cycle + 1
/-- Every slot of a bundle commits: EFR counts down, SYSW binds, the base register is rewritten, control goes on
(R212, R112, R353, R238, R51); and whether it goes on through ERET. A context that the selector has chosen while its
bundle was in an engine wait has still to issue its first bundle (R219). The first bundle of a launch is past when one has
committed in user mode: a handler may return to it, and the member may run GANG again (R93, log entry 120). -/
def State.endBundle (s : State) : State × Bool :=
  let i := s.issue
  let s := (s.modMe Ctx.tickEfr).applySysw
  let a := (s.me.rewriteBase s.cycle i.rewrite).advance i
  ({ s with issue := Issue.none, me := { a.1 with
      held := none, woken := none, fresh := a.1.fresh && a.1.priv, unissued := a.1.unissued && a.1.held.isSome
      nextAt := i.nextCycle s.cycle, lastAt := s.cycle } }, a.2)
/-- The end of a bundle that commits: a TRAP traps after it, its saved pc at the bundle that would have issued next
(R212, R214), ERET returns (R217). -/
def finishBundle (s : State) : Host.Outcome State Fault Refusal :=
  let r := s.endBundle
  match s.issue.soft with
  | some t => trapEnter r.1 t (r.1.wouldIssue (s.issue.nextCycle s.cycle))
  | none => if r.2 then eretReturn r.1 else .next r.1
/-- The cycle at which the bundle at the pc issued: for a bundle in an engine wait the cycle at which it first reached
issue (R214, R381), also for what has become visible since (log entry 134). -/
def State.issuedAt (s : State) : Nat := match s.me.held with | some h => h.first | none => s.cycle
/-- Results in flight of a context at a cycle, outstanding M0 loads among them (R213). -/
def Ctx.resultCount (c : Ctx) (cycle : Nat) : Nat :=
  c.inflight.countP (fun f => decide (cycle < f.due)) +
    c.m0.countP fun o => decide (cycle < o.due) && !o.written && o.base.isNone
/-- The trap that a bundle reports whose syllables took `s0` to `s` (R211). A count of results above 64 is cause 0x02 and
comes before any cause but 0x01 and 0x02. Of several conditions of cause 0x02, among which no rule chooses, an occupied slot
is reported first (`preTrap`), then the first one that a syllable meets in slot order, last this count (log entry 114). -/
def bundleTrap (s0 s : State) : Option TrapInfo :=
  let full := 64 < s.me.resultCount s.cycle && s0.me.resultCount s.cycle < s.me.resultCount s.cycle
  match s.issue.trap with
  | some t => if 2 < t.cause && full then some { cause := 0x02, sub := 5, slot := 15, addr := 0 } else some t
  | none => if full then some { cause := 0x02, sub := 5, slot := 15, addr := 0 } else none
/-- No memory answers at an address that the bundle needs, and no trap of the bundle as a whole comes first (R211). -/
def Issue.stops (i : Issue) : Option Fault :=
  match i.trap with
  | .some t => if t.cause ≤ 2 then .none else i.fatal
  | .none => i.fatal
/-- The slots of the acting context's core stay occupied as the syllables of a bundle have occupied them (R72, R381). -/
def State.keepSlots (s0 s : State) : State :=
  let k := coreOf s0.cur
  s0.setCore k { s0.core k with slotFree := (s.core k).slotFree }
/-- Settle the bundle whose syllables took `s0` to `s` (R87, R211, R212, R213, R381). A bundle that enters an engine wait
has issued: its slots are occupied from now on, and a resumed context's latch records count from here (R214). The reads on
which a trap or a wait rests have been made (R21). A TRAP of the bundle is taken after it has committed: another fault or a
wait of the bundle comes before it, and where it also holds a HALT the work ends instead (log entry 115). -/
def commit (s0 s : State) : Host.Outcome State Fault Refusal :=
  let i := s.issue
  let s0 := { s0 with issue := Issue.none }
  if i.hold then .next { s0 with me := { s0.me with atGang := s.me.atGang, unissued := true } }
  else
    match i.stops, bundleTrap s0 s, i.wait with
    | some f, _, _ => .fault f
    | none, some t, _ => trapEnter (s0.readLines i.checks) t s0.issuedAt
    | none, none, some w =>
      .next ((((s0.readLines i.checks).keepSlots s).modMe fun c => c.deliver s0.cycle).enterWait i w)
    | none, none, none => if i.halt then haltContext s0 s else finishBundle s
/-- A meaning: alone it settles its own bundle; in a bundle the step settles it. -/
def settle (s0 s : State) : Host.Outcome State Fault Refusal :=
  if s0.issue.multi then .next s else commit s0 s

end Sys2Proof.Machine
end

