-- ==== Sys2Proof/Machine/Sched.lean ====
section
/-! DEFINITION. Footprints (R200) and the bookkeeping of engine jobs: what holds a job, how it reports
completion and failure (R187, R204, R205). -/

namespace Sys2Proof.Machine

/-! Footprints (R200). -/

/-- A job that an earlier job of its domain holds (R200). A copy is never held by its own context's task. -/
def State.jobHeld (s : State) (j : Job) : Bool :=
  (s.jobs.takeWhile fun k => k.id ≠ j.id).any (fun k => k.domain = j.domain && footMeets j.foot k.foot) ||
  s.tasks.any fun t => t.id < j.id && t.id ≠ j.task && t.domain = j.domain && footMeets j.foot t.foot
/-- Jobs of a tower that footprint tracking holds (R200). -/
def State.tracked (s : State) (tower : Nat) : Nat :=
  s.jobs.countP (fun j => towerOf j.loc = tower && j.foot ≠ []) + s.tasks.countP (fun t => t.tower = tower && t.foot ≠ [])
def State.trackingFull (s : State) : Bool := decide (1024 ≤ s.tracked (towerOf s.cur))

/-- Bytes of a copy (R202). -/
def copyBytes (g : Vector Word 8) : Nat := bits g[0].toNat 31 0 * (bits g[0].toNat 47 32 + 1)
/-- A copy has written every byte or has failed, and has still to report its completion (R205). -/
def Job.copyEnded (j : Job) (g : Vector Word 8) : Bool := j.started && (j.failed || decide (copyBytes g ≤ j.pos))

/-! Completion of jobs (R187, R202, R205). -/

/-- A job raises what a start enabled by the counter `h` acquires (R187). -/
def State.releaseDep (s : State) (h : Nat) (pts : Word) : State :=
  { s with depReleases := Table.set 0 s.depReleases h (wmax (Table.get 0 s.depReleases h) pts) }
/-- Byte arrivals of a job at its barrier (R205). -/
def State.arriveBytes (s : State) (j : Job) (n : Nat) : State :=
  match j.completion with
  | .barrier pa => (s.releaseAt pa j.pts).barrierBytes pa n j.seq
  | .counter _ | .none => s
/-- The decrement of a job with CKIND 1 at its completion (R205). -/
def State.arriveCounter (s : State) (j : Job) : State :=
  match j.completion with
  | .counter h => (s.releaseDep h j.pts).decrement h 1
  | .barrier _ | .none => s
/-- One arrival as by BARV, or one decrement (R244, R274, R333, R346). -/
def State.arriveOnce (s : State) (j : Job) : State :=
  match j.completion with
  | .barrier pa => (s.releaseAt pa j.pts).barrierArrive pa
  | .counter h => (s.releaseDep h j.pts).decrement h 1
  | .none => s
/-- Replace a job by its next state. -/
def State.putJob (s : State) (j : Job) : State :=
  { s with jobs := s.jobs.map fun (k : Job) => if k.id = j.id then j else k }
/-- A job has ended. -/
def State.dropJob (s : State) (id : Nat) : State := { s with jobs := s.jobs.filter fun (k : Job) => k.id ≠ id }
def State.job (s : State) (id : Nat) : Option Job := s.jobs.find? fun (j : Job) => j.id = id
/-- Latch a failure in the CEERR of the issuing context, if it still runs that work (R205), and post its record. -/
def State.latchCeerr (s : State) (j : Job) (status : Nat) : State :=
  let s := s.faultRecord (status + j.seq.toNat * 2 ^ 16) j.loc
  match s.placeOf j.work with
  | some l => s.modCtx l fun c =>
      if c.ceerr.getLsbD 63 then c
      else { c with ceerr := BitVec.ofNat 64 (2 ^ 63 + status * 2 ^ 40 + j.seq.toNat) }
  | none =>
    -- CEERR of a Saved instance stands in its save area (R225).
    match s.saved.find? fun (v : Saved) => v.work = j.work with
    | none => s
    | some v =>
      let a := v.area + 0x350
      if loadBytes s.mem a 8 / 2 ^ 63 = 1 then s
      else (s.homeWrite 0 a 8 (2 ^ 63 + status * 2 ^ 40 + j.seq.toNat) none).1

/-- A copy may start: no edge holds it, and no earlier copy of its cluster that could start has not (R204). -/
def State.copyMayStart (s : State) (j : Job) : Bool :=
  !s.jobHeld j && !(s.jobs.any fun k =>
    k.id < j.id && clusterOf k.loc = clusterOf j.loc && !k.started && !s.jobHeld k &&
      (match k.kind with | .copy .. => true | _ => false))
/-- A virtual end that lies in an ownership entry naming another module (R201). -/
def State.remoteVa (s : State) (w : Word) : Bool :=
  decide (w.toNat < 2 ^ 57) && s.homeModule w.toNat != s.module.toNat

/-! Links that jobs use (R201, R253, R254). -/

def State.link (s : State) (i : Fin 12) : Link := s.links[i]
/-- PARTNER of a link names a module: the link has trained since the last device reset (R255). -/
def Link.known (l : Link) : Bool := l.up || l.ver ≠ 0
/-- The first link that `p` selects among those whose partner is the module `m`. -/
def State.linkWhere (s : State) (m : Nat) (p : Link → Bool) : Option Nat :=
  (List.range 12).find? fun i =>
    let l := s.link (Fin.ofNat 12 i)
    l.known && l.partner.toNat = m && p l
/-- The link by which accesses of another module go: one whose partner it is, of several one that is up, then one that
retrains, then a lost one (R254); where none leads there a free one (log entry 74). -/
def State.linkTo (s : State) (m : Nat) : Fin 12 :=
  match ((s.linkWhere m Link.up).or (s.linkWhere m fun l => !l.lost)).or (s.linkWhere m fun _ => true) with
  | some i => Fin.ofNat 12 i
  | none => Fin.ofNat 12 (Config.route m)
/-- The way to a module leads over a link that is lost (R254). -/
def State.lostTo (s : State) (m : Nat) : Bool := (s.link (s.linkTo m)).lost
/-- A flit may be sent: the link is up, and its replay buffer of 1024 flits has room (R254). -/
def Link.sends (l : Link) : Bool := l.up && decide (l.unacked < 1024)
/-- Send one flit: it takes the next sequence and a place in the replay buffer (R253, R254). -/
def Link.sent (l : Link) : Link := { l with sendSeq := l.sendSeq + 1, unacked := l.unacked + 1 }
def State.sendTo (s : State) (m : Nat) : State :=
  let i := s.linkTo m
  { s with links := s.links.set i (s.link i).sent }

end Sys2Proof.Machine
end

