-- ==== Sys2Proof/Machine/Engine.lean ====
section
/-! DEFINITION. E-slot instructions: geometry and copies, transaction barriers, bank passing, spawn and join, tasks
and dependences, gangs, time steps, page requests, fences and invalidations (R68, R90 to R93, R98, R100, R153, R166,
R186, R199 to R208, R285 to R290, R295, R313, R315, R333, R349, R354 to R357, R360). -/

namespace Sys2Proof.Machine

/-- An E form under its guard (R277): it occupies the slot for `n` cycles. -/
def engineOp (n : Nat) (g : PReg) (s : State) (f : State → State) : Host.Outcome State Fault Refusal :=
  settle s (guarded g (s.occupy 8 n) f)
/-- A form that takes a barrier operand: sub-code 0x21 comes first (R207). -/
def State.withBarrier (s : State) (t : SReg) (f : Nat → State) : State :=
  match barrierWord s.myCluster (s.rs t) with
  | some pa => f pa
  | none => s.trapAt 8 0x0B 0x21 0
/-! Geometry and copies (R202 to R204, R290, R295). -/

/-- CEGEO (R290). -/
def execCegeo (a b : SReg) (i : Fin 4) (g : PReg) (s : State) : Host.Outcome State Fault Refusal :=
  engineOp 1 g s fun s => s.modMe fun c =>
    { c with gShadow := (c.gShadow.setIfInBounds (2 * i.val) (s.rs a)).setIfInBounds (2 * i.val + 1) (s.rs b) }
/-- An end lies in its address kind (R295); a scratchpad end in an owned bank and below 3 MiB, otherwise a bank fault
(R204). A retired bank fails the command later (R26, R205). -/
def State.endTrap (s : State) (e : CopyEnd) (len : Nat) : Option Nat :=
  match e with
  | .scratch b o => if !s.bankOwned b then some 1 else if bankSize < o + len then some 2 else none
  | .virt _ => none
def endTooLong (e : CopyEnd) (len : Nat) : Bool :=
  match e with
  | .scratch .. => false
  | .virt va => decide (2 ^ 57 < va + len)
/-- The reserved geometry bits of a CPY are zero (R202). -/
def geometryOk (g : Vector Word 8) : Bool :=
  g[0].toNat < 2 ^ 48 && bits g[3].toNat 61 28 = 0 && g[4].toNat < 2 ^ 24 && g[5] = 0 && g[6] = 0 && g[7] = 0
/-- Copies that the copy engine of a cluster holds (R204). -/
def State.copiesIn (s : State) (cluster : Nat) : Nat :=
  s.jobs.countP fun j => clusterOf j.loc = cluster && (match j.kind with | .copy .. => true | _ => false)
/-- CPY (R204). Where both ends fault the sub-code is that of the destination (log entry 107). -/
def execCpy (d a : SReg) (g : PReg) (s : State) : Host.Outcome State Fault Refusal :=
  engineOp 1 g s fun s =>
    let geo := s.me.gShadow
    if 64 ≤ s.copiesIn s.myCluster || s.trackingFull then s.holdIssue
    else
      match copyEnd (s.rs d), copyEnd (s.rs a), geoCompletion s.myCluster geo[3] with
      | some de, some se, some done =>
        let rowlen := bits geo[0].toNat 31 0
        let dlen := copyExtent geo geo[2]
        let slen := copyExtent geo geo[1]
        if !geometryOk geo || rowlen = 0 || (0 < bits geo[0].toNat 47 32 && geo[2].toNat < rowlen) ||
            endTooLong de dlen || endTooLong se slen then s.trapAt 8 0x0B 0x20 0
        else
          match s.endTrap de dlen, s.endTrap se slen with
          | some sub, _ => s.trapAt 8 0x03 sub 0
          | none, some sub => s.trapAt 8 0x03 sub 0
          | none, none =>
            s.issueCopy (s.rs d) (s.rs a) geo de se done
      | _, _, _ => s.trapAt 8 0x0B 0x20 0

/-! Transaction barriers (R207, R208, R287, R288). -/

/-- BINIT (R206, R208, R287): a read-modify-write; waiters test the new state; what completed phases have released stays to
be acquired. -/
def execBinit (t n : SReg) (g : PReg) (s : State) : Host.Outcome State Fault Refusal :=
  engineOp 1 g s fun s => s.withBarrier t fun pa =>
    match s.bankFault (bankOfPa pa) (pa % 2 ^ 22) 16 with
    | some sub => s.trapAt 8 0x03 sub 0
    | none =>
      if 2 ^ 16 ≤ (s.rs n).toNat then s.trapAt 8 0x0B 0x21 0
      else
        let k := (s.rs n).toNat
        ((s.barrierFetch pa).setBarrier pa
          { pend := 0, exp := k, rem := k, lseq := 0, ph := false, ovf := false }).wakeBarrier pa
/-- BEXP (R208). -/
def execBexp (t b : SReg) (g : PReg) (s : State) : Host.Outcome State Fault Refusal :=
  engineOp 1 g s fun s => s.withBarrier t fun pa => s.barrierExpect pa (s.rs b).toInt
/-- BARV (R208). -/
def execBarv (t : SReg) (g : PReg) (s : State) : Host.Outcome State Fault Refusal :=
  engineOp 1 g s fun s => s.withBarrier t fun pa => s.barrierArrive pa
/-- BTEST (R208): it acquires the completed phases. -/
def execBtest (d t : SReg) (g : PReg) (s : State) : Host.Outcome State Fault Refusal :=
  engineOp 1 g s fun s => s.withBarrier t fun pa =>
    ((s.barrierLine pa).result 8 6 (.scalar d (s.barrier pa).testWord false)).acquire pa
/-- BWAIT (R208, R288). -/
def execBwait (t : SReg) (q : Bool) (g : PReg) (s : State) : Host.Outcome State Fault Refusal :=
  engineOp 1 g s fun s => s.withBarrier t fun pa =>
    let b := s.barrier pa
    if s.issue.ended.contains (.barrier pa q) then s.acquire pa
    else if s.issue.woken = some .overflow then s.trapAt 8 0x07 1 0
    else if b.ovf then (s.checking [pa / 64]).trapAt 8 0x07 1 0
    else if b.ph != q then (s.barrierLine pa).acquire pa
    else (s.checking [pa / 64]).waitFor 8 (.bwait t q g) (.barrier pa q)
/-- The place of context `c` (core in [3:2], context in [1:0]) of the acting cluster. -/
def State.placeInCluster (s : State) (c : Nat) : Nat := 16 * s.myCluster + c % 16
/-- BANKGIVE (R285). -/
def execBankgive (t m : SReg) (c : Fin 16) (g : PReg) (s : State) : Host.Outcome State Fault Refusal :=
  engineOp 1 g s fun s => s.withBarrier t fun pa =>
    let banks := s.rs m
    let loc := s.placeInCluster c.val
    let inMask (p : Nat) : Bool := banks.getLsbD (p / bankSize)
    let k := s.cluster s.myCluster
    if banks &&& ~~~s.me.banks ≠ 0 then s.trapAt 8 0x03 0x01 0
    else if banks = 0 || loc = s.cur ||
        s.me.regions.any (fun r => (List.range (r.len / bankSize + 2)).any fun i =>
          r.len ≠ 0 && r.start / bankSize + i ≤ (r.start + r.len - 1) / bankSize && inMask (r.start + i * bankSize))
      then s.trapAt 8 0x0B 0x61 0
    else if 4 ≤ k.passes.countP (fun p => p.issuer = s.me.work) then s.trapAt 8 0x0B 0x62 0
    else
      let phase := (s.barrier pa).ph
      let s := s.barrierLine pa
      let y := s.ctx loc
      let p : Pass := { issuer := s.me.work, banks := banks, target := if y.status = .idle then none else some y.work
                        barrier := pa, phase := phase }
      s.setCluster s.myCluster { k with passes := k.passes ++ [p] }

/-! SPAWN (R90 to R92, R349). -/

/-- The context that SPAWN starts (R91). -/
def spawnCtx (s : State) (entry : Word) (blk : Nat) (work : Nat) : Ctx :=
  let arg (i : Nat) : Word := s.rs (Fin.ofNat 64 (8 * blk + i))
  { Ctx.reset with
    status := .ready
    pc := bundleAddrOf entry
    regs := { Regs.reset with s := Vector.ofFn fun i : Fin 64 => if 1 ≤ i.val && i.val ≤ 8 then arg (i.val - 1) else 0 }
    ptroot := s.me.ptroot
    pts := s.me.pts
    wid := s.me.wid
    task := s.me.task
    work := work
    startAt := some (s.cycle + 8) }
where
  /-- sE with bits [1:0] cleared. -/
  bundleAddrOf (w : Word) : Word := w &&& ~~~3#64
/-- SPAWN (R91). -/
def execSpawn (t e : SReg) (blk : Fin 8) (g : PReg) (s : State) : Host.Outcome State Fault Refusal :=
  engineOp 2 g s fun s =>
    let loc := s.placeInCluster (s.rs t).toNat
    if loc = s.cur || (s.ctx loc).status ≠ .idle then s.trapAt 8 0x04 1 0
    else if s.me.gidx.getLsbD 63 then s.trapAt 8 0x04 2 0
    else
      let work := s.nextId
      let s' := { s with
        nextId := s.nextId + 1
        tasks := s.tasks.map fun (k : TaskInfo) => if k.id = s.me.task then { k with live := k.live ++ [work] } else k }
      (s'.setCtx loc (spawnCtx s (s.rs e) blk.val work)).modMe fun c =>
        { c with spawned := Table.set 0 c.spawned loc work }
/-- The joined work of a target (R92): what it holds, or the work last spawned on it if that is Saved; none where its
task has ended under R216 (R349). -/
def State.joinedWork (s : State) (loc : Nat) : Option Nat :=
  let y := s.ctx loc
  let dead (task : Nat) : Bool := s.tasks.any fun t => t.id = task && t.dead
  if y.status ≠ .idle then (if dead y.task then none else some y.work)
  else
    let w := Table.get 0 s.me.spawned loc
    if w ≠ 0 && s.saved.any (fun (v : Saved) => v.work = w && !dead v.task) then some w else none
/-- The joiner's later accesses come after those of the ended work (R92). -/
def State.acquireWork (s : State) (w : Nat) : State :=
  s.modMe fun c => { c with pts := wmax c.pts (Table.get 0 s.workPts w) }
/-- SPAWN in join mode (R92, R349). -/
def execSpawnJoin (t : SReg) (g : PReg) (s : State) : Host.Outcome State Fault Refusal :=
  engineOp 2 g s fun s =>
    let loc := s.placeInCluster (s.rs t).toNat
    if loc = s.cur then s.trapAt 8 0x04 1 0
    else if s.me.gidx.getLsbD 63 then s.trapAt 8 0x04 2 0
    else
      match s.issue.ended.findSome? fun w => match w with | .join k => some k | _ => none with
      | some k => s.acquireWork k
      | none =>
        match s.joinedWork loc with
        | some k => s.waitFor 8 (.spawnJoin t g) (.join k)
        | none => s.acquireWork (Table.get 0 s.me.spawned loc)

/-! TASK and TDEP (R354, R356). -/

/-- TASK (R354). -/
def execTask (r q : SReg) (g : PReg) (s : State) : Host.Outcome State Fault Refusal :=
  engineOp 1 g s fun s =>
    let a := (s.rs r).toNat
    let n := (s.rs q).toNat
    if a % 64 ≠ 0 || 2 ^ 57 ≤ a || n / 2 ^ 14 ≠ 0 || bits n 7 6 ≠ 0 then s.trapAt 8 0x0B 0x72 0
    else s.enterJob (.task (s.rs r) (n % 64) (n / 256 % 64)) 0 [] .none 0
/-- TDEP (R356); its operand field holds n − 1. -/
def execTdep (h : SReg) (n : Fin 64) (g : PReg) (s : State) : Host.Outcome State Fault Refusal :=
  engineOp 1 g s fun s =>
    if 4096 ≤ (s.rs h).toNat then s.trapAt 8 0x0B 0x71 0
    else s.enterJob (.tdep (s.rs h).toNat (n.val + 1)) 0 [] .none 0

/-! Gangs (R93, R98, R315). -/

/-- GANG stands in the first bundle of a gang launch, and its register holds the launch's size (R93, R315). The bundle is the
first one also after a handler that a trap of it has entered returns to it (log entry 120). -/
def State.gangFits (s : State) (n : SReg) : Bool :=
  s.me.fresh && !s.me.priv && s.me.gidx.getLsbD 63 && (s.rs n).toNat == bits s.me.gidx.toNat 14 8
/-- Every other member of the launch waits at its GANG (R93). -/
def State.lastAtGang (s : State) (n : SReg) : Bool :=
  let others := s.gangMembers.filter fun l => l ≠ s.cur
  others.length + 1 = (s.rs n).toNat && others.all fun l => (s.ctx l).atGang
/-- The launched members of the acting context are a formed gang from now on (R93). -/
def State.formGang (s : State) : State :=
  let form (c : Ctx) : Ctx := { c with ganged := true, atGang := false }
  (s.gangMembers.foldl (fun (t : State) l => t.modCtx l form) s).modMe form
/-- GANG (R93, R315): a member waits under an issue hold until the last one reaches it; then the gang is formed, and the
bundle is the first that it issues. It may issue again as long as it has not committed. -/
def execGang (n : SReg) (s : State) : Host.Outcome State Fault Refusal :=
  let s' := s.occupy 8 1
  settle s (
    if !s.gangFits n then s'.trapAt 8 0x0B 0x01 0
    else if s.me.ganged then s'
    else if s.lastAtGang n then s'.formGang
    else (s'.modMe fun c => { c with atGang := true }).holdIssue)
/-- GEND (R98): the members end, the lead goes on as an ordinary context. -/
def execGend (s : State) : Host.Outcome State Fault Refusal :=
  let s' := s.occupy 8 1
  settle s (
    if !s.me.ganged then s'.trapAt 8 0x0B 0x01 0
    else if bits s.me.gidx.toNat 5 0 = 0 then s'.modMe fun c => { c with gidx := 0, ganged := false }
    else { s' with issue := { s'.issue with gend := true } })

/-! TSWAIT (R100, R360). -/

/-- TSWAIT: a step already reached counts in LATE. -/
def execTswait (x : SReg) (g : PReg) (s : State) : Host.Outcome State Fault Refusal :=
  engineOp 1 g s fun s =>
    let n := s.rs x
    if s.issue.ended.contains (.timeStep n) then s
    else if n ≤ s.timeStep then s.modMe fun c =>
      { c with tslate := if c.tslate = BitVec.allOnes 32 then c.tslate else c.tslate + 1 }
    else s.waitFor 8 (.tswait x g) (.timeStep n)

/-! PREQ (R166, R333). -/

/-- PREQ: an absent page is requested and its job waits; otherwise its one arrival is made. -/
def execPreq (a t : SReg) (g : PReg) (s : State) : Host.Outcome State Fault Refusal :=
  engineOp 1 g s fun s => s.withBarrier t fun pa =>
    let va := s.rs a
    let st := (s.translate s.me.ptroot va .read (!s.me.priv)).st
    let s := s.readLines (s.tableLines s.me.ptroot va)
    match st with
    | .hole => s.fatalAddress
    | .ok => s.barrierArrive pa
    | .format | .protect | .chain => (s.faultRecord 0).barrierArrive pa
    | .absent =>
      let id := s.nextId
      let s := s.enterJob (.preq va) 0 [] (.barrier pa) 0
      let r := s.requestPage va s.me.ptroot (some id) none
      { r.2 with jobs := r.2.jobs.map fun (j : Job) => if j.id = id then { j with request := some r.1 } else j }

/-! Fences and invalidations. Stores of this model are performed as they issue and every access walks afresh, so that
nothing is left to wait for (R186, R313, R357; log entries 4 and 7). -/

/-- FENCE.ENG (R186). -/
def execFenceEng (g : PReg) (s : State) : Host.Outcome State Fault Refusal := engineOp 1 g s fun s => s
/-- FENCE.SYS (R186). -/
def execFenceSys (g : PReg) (s : State) : Host.Outcome State Fault Refusal := engineOp 1 g s fun s => s
/-- A TLBINV form: privileged whatever its guard, with its operand check (R357). -/
def tlbinv (ok : Bool) (g : PReg) (s : State) : Host.Outcome State Fault Refusal :=
  settle s (
    let s' := s.occupy 8 1
    if !s.me.priv then s'.trapAt 8 0x01 0x0A 0
    else guarded g s' fun s => if ok then s else s.trapAt 8 0x0B 0x73 0)
/-- TLBINV.ALL (R357). -/
def execTlbinvAll (g : PReg) (s : State) : Host.Outcome State Fault Refusal := tlbinv true g s
/-- TLBINV.VA (R357). -/
def execTlbinvVa (a len : SReg) (g : PReg) (s : State) : Host.Outcome State Fault Refusal :=
  let x := (s.rs a).toNat
  let n := (s.rs len).toNat
  tlbinv (x % 4096 = 0 && n % 4096 = 0 && 0 < n && n ≤ 2 ^ 57 && x < 2 ^ 57) g s
/-- TLBINV.AS (R357). -/
def execTlbinvAs (a : SReg) (g : PReg) (s : State) : Host.Outcome State Fault Refusal :=
  let x := (s.rs a).toNat
  tlbinv (x % 4096 = 0 && x < 2 ^ 52) g s

end Sys2Proof.Machine
end

