-- ==== Sys2Proof/Machine/Copy.lean ====
section
/-! DEFINITION. Accesses of engine jobs (R187, R237) and the copy engine (R204, R205, R220, R295). -/

namespace Sys2Proof.Machine

/-! Engine accesses. -/

/-- Why a job cannot go on: a page is absent (R167), or it fails with a CEERR status (R205, R233). -/
inductive EngineStop where
  | absent (va : Word)
  | status (n : Nat)
  | hole
  deriving DecidableEq, Repr

/-- ChaseMark for a job (R237). A page in a retired bank ends the job with status 0x01 (R26, R157), also where the read of a
table has just retired it. -/
def State.jobChase (s : State) (root : Word) (user : Bool) (va : Word) (kind : Access) : Chased ⊕ EngineStop :=
  let c := chase s root va kind user
  match c.x.st with
  | .ok => if (s.readLines c.tables).inRetired c.x.pa then .inr (.status 1) else .inl c
  | .absent => .inr (.absent (va + c.delta))
  | .chain => .inr (.status 7)
  | .format | .protect => .inr (.status 3)
  | .hole => .inr .hole
/-- The reads of the tables by which an access that stops has walked, where they stand in a bank (R21). -/
def State.walked (s : State) (root : Word) (user : Bool) (va : Word) (kind : Access) : State :=
  s.readLines (chase s root va kind user).tables
/-- An engine read of the line at a place (R187), after the marks that it met (R190): its bytes, its poison, the job's
timestamp. A read of an ephemeral page that comes too late is counted (R159). -/
def State.engineLoad (s : State) (pts : Word) (c : Chased) : LineRead :=
  let r := (s.readLines c.tables).homeLoad none (wmax pts c.seen) c.x.e c.x.pa
  if s.expired c.x.e (s.sliceStamp c.x.e c.x.pa) then { r with s := r.s.count, poison := true } else r
/-- Count a dropped write of the work that issued a job (R181); its DSDROP stands in its save area while it is Saved (R225).
Drops at the homes of this module alone count: how another module reports one no rule says (log entry 132). -/
def State.countDrop (s : State) (work : Nat) : State :=
  match s.placeOf work with
  | some l => s.modCtx l Ctx.dropCounted
  | none =>
    match s.saved.find? fun (v : Saved) => v.work = work with
    | none => s
    | some v =>
      let a := v.area + 0x340
      let n := loadBytes s.mem a 8
      (s.homeWrite 0 a 8 (if n = 2 ^ 32 - 1 then n else n + 1) none).1
/-- An engine write of `n` bytes of one line under R181, after the marks that it met (R190), into the slice of the line
(R156). -/
def State.engineStore (s : State) (j : Job) (c : Chased) (n val : Nat) (setP clrP : Bool)
    (mask : BitVec 64 := BitVec.allOnes 64) : State × Word :=
  let r := (s.readLines c.tables).ruledStore (wmax j.pts c.seen) j.wid c.x.e c.x.pa n val setP clrP mask
  (if r.2.2 then r.1.countDrop j.work else (r.1.forgive j s).l2Mark (c.x.pa / 64) true, r.2.1)
/-- Send a job's page request; the job waits for its outcome (R167). -/
def State.jobRequest (s : State) (j : Job) (va : Word) : State :=
  let r := s.requestPage va j.root (some j.id) none
  r.2.putJob { j with request := some r.1 }

/-- An engine read of `n` bytes from `va` on, line by line: the state, the timestamp, the bytes, their poison; where it stops,
the state after what it has read until then (R21). -/
def State.engineRead (root : Word) (user : Bool) : Nat → State → Word → Word → Nat →
    (State × Word × Nat × Bool) ⊕ (State × EngineStop)
  | 0, s, pts, _, _ => .inl (s, pts, 0, false)
  | fuel + 1, s, pts, va, n =>
    if n = 0 then .inl (s, pts, 0, false)
    else
      match s.jobChase root user va .read with
      | .inr st => .inr (s.walked root user va .read, st)
      | .inl c =>
        let o := va.toNat % 64
        let k := Nat.min n (64 - o)
        let r := s.engineLoad pts c
        let here := r.data / 2 ^ (8 * o) % 2 ^ (8 * k)
        match State.engineRead root user fuel r.s r.pts (va + BitVec.ofNat 64 k) (n - k) with
        | .inr st => .inr st
        | .inl (t, pts, rest, p) => .inl (t, pts, here + rest * 2 ^ (8 * k), r.poison || p)
/-- An engine read of a job. -/
def State.jobRead (s : State) (j : Job) (va : Word) (n : Nat) : (State × Word × Nat × Bool) ⊕ (State × EngineStop) :=
  State.engineRead j.root j.user (n / 64 + 2) s j.pts va n
/-- An engine write of `n` bytes from `va` on, line by line (R187); `poison` marks what is written. -/
def State.jobWrite (j : Job) (poison : Bool) : Nat → State → Word → Word → Nat → Nat →
    (State × Word) ⊕ (State × EngineStop)
  | 0, s, pts, _, _, _ => .inl (s, pts)
  | fuel + 1, s, pts, va, n, v =>
    if n = 0 then .inl (s, pts)
    else
      match s.jobChase j.root j.user va .write with
      | .inr st => .inr (s.walked j.root j.user va .write, st)
      | .inl c =>
        let k := Nat.min n (64 - va.toNat % 64)
        let r := s.engineStore { j with pts := pts } c k (v % 2 ^ (8 * k)) poison (!poison && k = 64)
        State.jobWrite j poison fuel r.1 r.2 (va + BitVec.ofNat 64 k) (n - k) (v / 2 ^ (8 * k))

/-! Portions: the parts of the destination lines of a copy (R205). -/

/-- Row, offset in the row, and bytes. -/
abbrev Portion := Nat × Nat × Nat
/-- The portions of `len` bytes from byte address `a` on, by line. -/
def splitLines (row a : Nat) : Nat → Nat → Nat → List Portion
  | 0, _, _ => []
  | fuel + 1, off, len =>
    if len = 0 then []
    else
      let n := Nat.min len (64 - (a + off) % 64)
      (row, off, n) :: splitLines row a fuel (off + n) (len - n)
/-- The byte address of an end for row `r`: virtual, or the offset in its bank. -/
def endRow (e : CopyEnd) (stride : Word) (r : Nat) : Nat :=
  match e with
  | .scratch _ o => o + r * stride.toNat
  | .virt va => va + r * stride.toNat
def copyPortions (de : CopyEnd) (g : Vector Word 8) : List Portion :=
  let len := bits g[0].toNat 31 0
  (List.range (bits g[0].toNat 47 32 + 1)).flatMap fun r =>
    splitLines r (endRow de g[2] r) (len / 64 + 2) 0 len
/-- The next portion a copy writes: destination addresses ascend within a row, and rows ascend (R296). -/
def nextPortion (done : List Nat) (ps : List Portion) : Option (Nat × Portion) :=
  ((ps.zipIdx.filter fun x => !done.contains x.2).head?).map fun x => (x.2, x.1)

/-- One source line of a copy, read once (R204): the state, the job with the line kept, and the line or what stops it. -/
def State.copySource (s : State) (j : Job) (e : CopyEnd) (a : Nat) : State × Job × ((Nat × Bool) ⊕ EngineStop) :=
  let line := a / 64
  match j.src.lookup line with
  | some (d, p) => (s, j, .inl (d, p))
  | none =>
    let keep (t : State) (j : Job) (d : Nat) (p : Bool) : State × Job × ((Nat × Bool) ⊕ EngineStop) :=
      (t, { j with src := j.src ++ [(line, d, p)] }, .inl (d, p))
    match e with
    | .scratch b _ =>
      if s.retired.contains (64 * clusterOf j.loc + b) then (s, j, .inr (.status 1))
      else
        let r := s.bankRead (clusterOf j.loc) b (64 * line) 64 true
        keep r.1 j r.2.1 r.2.2
    | .virt _ =>
      match s.jobChase j.root j.user (BitVec.ofNat 64 a) .read with
      | .inr st => (s.walked j.root j.user (BitVec.ofNat 64 a) .read, j, .inr st)
      | .inl c =>
        let r := s.engineLoad j.pts c
        keep r.s { j with pts := r.pts } r.data r.poison
/-- `n` bytes of the source from byte address `a` on, at most two lines; `remote` where the source is remote, with the
poison of its lines (R172). -/
def State.copyBytesAt (s : State) (j : Job) (e : CopyEnd) (remote : Option Delivered) (a n : Nat) :
    State × Job × ((Nat × Bool) ⊕ EngineStop) :=
  match remote with
  | some d => (s, j, .inl (d.data % 2 ^ (8 * n), d.poison))
  | none =>
    match s.copySource j e a with
    | (s, j, .inr st) => (s, j, .inr st)
    | (s, j, .inl (d, p)) =>
      let first := Nat.min n (64 - a % 64)
      let low := d / 2 ^ (8 * (a % 64)) % 2 ^ (8 * first)
      if first = n then (s, j, .inl (low, p))
      else
        match s.copySource j e (a + first) with
        | (s, j, .inr st) => (s, j, .inr st)
        | (s, j, .inl (d2, p2)) => (s, j, .inl (low + d2 % 2 ^ (8 * (n - first)) * 2 ^ (8 * first), p || p2))
/-- Bytes whose source lies in the command's own written region are undefined (R295): free values. -/
def undefineOwn (c : Nat) (de se : CopyEnd) (dlen a n v : Nat) : Nat :=
  let own (x : Nat) : Bool :=
    match de, se with
    | .scratch b o, .scratch b' _ => b == b' && o ≤ x && x < o + dlen
    | .virt d, .virt _ => d ≤ x && x < d + dlen
    | .scratch .., .virt _ | .virt _, .scratch .. => false
  (List.range n).foldr (fun i acc =>
    (if own (a + i) then (Config.freeByte (c + i)).toNat else v / 256 ^ i % 256) + 256 * acc) 0
/-- A destination line in HBM takes the expected read count of its copy and a place in its home slice (R158, R202, R295). No
other fill has a read count (log entry 92). -/
def State.countFill (s : State) (c : Chased) (rdcnt : Nat) : State :=
  if rdcnt ≠ 0 && inHbm c.x.pa then
    (s.l2Fill c.x.e c.x.pa).setLine c.x.pa { (s.l2Fill c.x.e c.x.pa).line c.x.pa with readCount := rdcnt }
  else s
/-- Write one portion to its destination: the state, the job's timestamp; a stop writes nothing, but its walk is made. A
portion for another module leaves as a flit (R201, R254). A read count is installed also where the rule of R181 drops the
write, of which no rule speaks (log entry 131). -/
def State.copyDest (s : State) (j : Job) (e : CopyEnd) (rdcnt a n v : Nat) (poison : Bool) :
    (State × Word) ⊕ (State × EngineStop) :=
  match e with
  | .scratch b _ =>
    if s.retired.contains (64 * clusterOf j.loc + b) then .inr (s, .status 1)
    else .inl ((s.bankWrite (clusterOf j.loc) b a n v poison (!poison) true).forgive j s, j.pts)
  | .virt _ =>
    if s.remoteVa (BitVec.ofNat 64 a) then .inl (s.sendTo (s.homeModule a), j.pts)
    else
      match s.jobChase j.root j.user (BitVec.ofNat 64 a) .write with
      | .inr st => .inr (s.walked j.root j.user (BitVec.ofNat 64 a) .write, st)
      | .inl c =>
        let r := s.engineStore j c n v poison (!poison && n = 64)
        .inl (r.1.countFill c rdcnt, r.2)
/-- Give free values to destination portions that are undefined (R205, R220), where they can be written. -/
def State.undefine (s : State) (j : Job) (de : CopyEnd) (stride : Word) (ps : List Portion) : State :=
  ps.foldl (fun (s : State) (r, off, n) =>
    let a := endRow de stride r + off
    let v := freeBytesFrom s.freeCount n
    let pa? : Option Nat :=
      match de with
      | .scratch b _ => if s.retired.contains (64 * clusterOf j.loc + b) then none else some (scratchPa (clusterOf j.loc) b a)
      | .virt _ =>
        if s.remoteVa (BitVec.ofNat 64 a) then none
        else
          match s.jobChase j.root j.user (BitVec.ofNat 64 a) .write with
          | .inl c => some c.x.pa
          | .inr _ => none
    match pa? with
    | none => s
    | some pa => { s with mem := storeBytes s.mem pa n v, freeCount := s.freeCount + n }.recall (pa / 64)) s
/-- A copy fails (R205): unwritten bytes are undefined and arrive, its status is latched. That they arrive all at once, as one
byte arrival, no rule says (log entry 122). -/
def State.failCopy (s : State) (j : Job) (de : CopyEnd) (g : Vector Word 8) (status : Nat) : State :=
  let left := (copyPortions de g).zipIdx.filterMap fun x => if j.done.contains x.2 then none else some x.1
  let s := (s.undefine j de g[2] left).latchCeerr j status
  let n := copyBytes g - j.pos
  let s := if n = 0 then s else s.arriveBytes j n
  s.putJob { j with failed := true, pos := copyBytes g, refused := false }
/-- Go on after a stop: wait for the page, or fail. -/
def State.copyStop (s : State) (j : Job) (de : CopyEnd) (g : Vector Word 8) (st : EngineStop) :
    Host.Outcome State Fault Refusal :=
  match st with
  | .hole => .fault .reservedAddress
  | .status n => .next (s.failCopy j de g n)
  | .absent va => .next (s.jobRequest j va)

/-- COPY_START (R204). -/
def execCopyStart (id : Nat) (s : State) : Host.Outcome State Fault Refusal :=
  match s.job id with
  | some j =>
    match j.kind with
    | .copy .. => .next (if s.copyMayStart j then s.putJob { j with started := true } else s)
    | .reloc .. | .msweep .. | .smap .. | .swb .. | .preq _ | .fampw _ | .task .. | .tdep .. | .reshard .. | .coll .. =>
      .next s
  | none => .next s
/-- The next portion of a copy can go: a portion for another module needs a place on the link to it (R254). -/
def State.portionGoes (s : State) (e : CopyEnd) (a : Nat) : Bool :=
  match e with
  | .scratch .. => true
  | .virt _ => !s.remoteVa (BitVec.ofNat 64 a) || (s.link (s.linkTo (s.homeModule a))).sends
/-- The next portion of a copy can go. -/
def State.portionReady (s : State) (j : Job) (dst : Word) (g : Vector Word 8) : Bool :=
  match copyEnd dst with
  | none => false
  | some de =>
    match nextPortion j.done (copyPortions de g) with
    | some (_, r, off, _) => s.portionGoes de (endRow de g[2] r + off)
    | none => true
/-- One portion of an own copy is read, written, and arrives (R204, R205). `incoming` is what a remote source delivers. A
source is remote as a whole, by its base; of a destination each portion is, by its own address (R201, log entry 106). -/
def State.copyPortion (s : State) (j : Job) (src : Word) (g : Vector Word 8) (de se : CopyEnd) (incoming : Delivered) :
    Host.Outcome State Fault Refusal :=
  if !j.started || j.failed || j.request.isSome then .next s
  else if j.refused then .next (s.failCopy j de g 2)
  else
    match nextPortion j.done (copyPortions de g) with
    | none => .next s
    | some (i, r, off, n) =>
      let sa := endRow se g[1] r + off
      let da := endRow de g[2] r + off
      let remote := if s.remoteVa src then some incoming else none
      if !s.portionGoes de da then .next s
      else
        match s.copyBytesAt j se remote sa n with
        | (t, j, .inr st) => t.copyStop j de g st
        | (t, j, .inl (v, p)) =>
          let v := undefineOwn t.freeCount de se (copyExtent g g[2]) sa n v
          let t := { t with freeCount := t.freeCount + n }
          match t.copyDest j de (bits g[4].toNat 23 16) da n v p with
          | .inr (t, st) => t.copyStop j de g st
          | .inl (u, pts) =>
            let j := { j with pts := pts, pos := j.pos + n, done := j.done ++ [i] }
            .next ((u.putJob j).arriveBytes j n)
/-- A portion of another module's copy command, performed at its home here in the order of this module (R184, R187, R201).
A page that is absent is requested, and the portion comes again (R167); the command's failure is its own module's. -/
def State.foreignWrite (s : State) (w : ForeignWrite) (data : Nat) : State :=
  let n := Nat.min w.bytes (64 - w.va.toNat % 64)
  let c := chase s w.root w.va .write w.user
  match c.x.st with
  | .ok =>
    if (s.readLines c.tables).inRetired c.x.pa then s.readLines c.tables
    else
      let r := (s.readLines c.tables).ruledStore (wmax w.pts c.seen) w.wid c.x.e c.x.pa n (data % 2 ^ (8 * n)) w.poison
        (!w.poison && n = 64)
      (if r.2.2 then r.1 else r.1.l2Mark (c.x.pa / 64) true).countFill c w.readCount
  | .absent => ((s.readLines c.tables).requestPage (w.va + c.delta) w.root none none).2
  | .format | .protect | .hole | .chain => s.readLines c.tables
/-- A line of this module that another module's copy command reads (R184, R187). -/
def State.foreignRead (s : State) (root : Word) (user : Bool) (va pts : Word) : State :=
  let c := chase s root va .read user
  match c.x.st with
  | .ok => if (s.readLines c.tables).inRetired c.x.pa then s.readLines c.tables else (s.engineLoad pts c).s
  | .absent => ((s.readLines c.tables).requestPage (va + c.delta) root none none).2
  | .format | .protect | .hole | .chain => s.readLines c.tables
/-- COPY_LINE_WRITE: a line write of a copy command (R184, R187, R204, R205). `data` is what comes from another module: the
bytes of a remote source with its poison, or those of its write. -/
def execCopyLineWrite (step : PortionStep) (data : Delivered) (s : State) : Host.Outcome State Fault Refusal :=
  match step with
  | .foreignWrite w => .next (s.foreignWrite w data.data)
  | .foreignRead root user va pts => .next (s.foreignRead root user va pts)
  | .own id =>
    match s.job id with
    | none => .next s
    | some j =>
      match j.kind with
      | .copy dst src g =>
        match copyEnd dst, copyEnd src with
        | some de, some se => s.copyPortion j src g de se data
        | _, _ => .next s
      | .reloc .. | .msweep .. | .smap .. | .swb .. | .preq _ | .fampw _ | .task .. | .tdep .. | .reshard .. | .coll .. =>
        .next s
/-- The CEERR status of a failure at the remote end (R205, R233). -/
def failStatus : CopyFailure → Nat
  | .pageRefused => 2
  | .protection => 3
  | .linkLost => 4
  | .retired => 1
  | .chain => 7
/-- COPY_COMPLETE: after the last write a counter falls; a failure of the remote end or of the way to it fails the command
(R205). -/
def execCopyComplete (id : Nat) (fail : Option CopyFailure) (s : State) : Host.Outcome State Fault Refusal :=
  match s.job id with
  | none => .next s
  | some j =>
    match j.kind with
    | .copy dst _ g =>
      if j.copyEnded g then .next ((s.arriveCounter j).dropJob id)
      else
        match fail, copyEnd dst with
        | some why, some de => .next (((s.failCopy j de g (failStatus why)).arriveCounter j).dropJob id)
        | _, _ => .next s
    | .reloc .. | .msweep .. | .smap .. | .swb .. | .preq _ | .fampw _ | .task .. | .tdep .. | .reshard .. | .coll .. =>
      .next s
/-- The way to a virtual address leads over a lost link. -/
def State.wayLost (s : State) (va : Word) : Bool := s.remoteVa va && s.lostTo (s.homeModule va.toNat)
/-- A copy needs a lost link (R254): to its source, or to a portion of its destination that it has not written (log entry
106). -/
def State.copyLost (s : State) (j : Job) (dst src : Word) (g : Vector Word 8) : Bool :=
  s.wayLost src ||
    match copyEnd dst with
    | some (.virt va) =>
      ((copyPortions (.virt va) g).zipIdx).any fun (p, i) =>
        !j.done.contains i && s.wayLost (BitVec.ofNat 64 (endRow (.virt va) g[2] p.1 + p.2.1))
    | some (.scratch ..) | none => false

end Sys2Proof.Machine
end

