-- ==== Sys2Proof/Machine/Reshard.lean ====
section
/-! DEFINITION. Tensor layout records and resharding (R239 to R246, R337). -/

namespace Sys2Proof.Machine

/-! Tensor layout records (R239, R240). -/

/-- A tensor layout record as its 1024 bits. -/
abbrev Tlr := Nat
def tlrVersion (t : Tlr) : Nat := bits t 15 0
def tlrRank (t : Tlr) : Nat := bits t 18 16
def tlrTile (t : Tlr) : Bool := bits t 19 19 == 1
/-- Element size in bytes. -/
def tlrEs (t : Tlr) : Nat := 2 ^ bits t 21 20
/-- Number of mesh axes. -/
def tlrAxes (t : Tlr) : Nat := bits t 23 22 + 1
def tlrAmap (t : Tlr) (d : Nat) : Nat := bits t (3 * d + 26) (3 * d + 24)
def tlrMods (t : Tlr) : Nat := bits t 54 42
def tlrMesh (t : Tlr) (a : Nat) : Nat := bits t (16 * a + 79) (16 * a + 64)
def tlrExt (t : Tlr) (d : Nat) : Nat := bits t (32 * d + 159) (32 * d + 128)
def tlrBlk (t : Tlr) (d : Nat) : Nat := bits t (32 * d + 351) (32 * d + 320)
def tlrStride (t : Tlr) (d : Nat) : Nat := bits t (64 * d + 575) (64 * d + 512)
def tlrBtab (t : Tlr) : Word := BitVec.ofNat 64 (bits t 959 896)
def tlrDims (t : Tlr) : List Nat := List.range (tlrRank t)
def cdiv (a b : Nat) : Nat := (a + b - 1) / b
/-- Owning axis of a dimension, if it is distributed. -/
def tlrAxis (t : Tlr) (d : Nat) : Option Nat := if tlrAmap t d = 7 then none else some (tlrAmap t d)
/-- The largest local extent L_d (R240). -/
def tlrLocal (t : Tlr) (d : Nat) : Nat :=
  match tlrAxis t d with
  | none => tlrExt t d
  | some a => cdiv (cdiv (tlrExt t d) (tlrBlk t d)) (tlrMesh t a) * tlrBlk t d
/-- The coordinate of mesh position `n` on axis `a` (R239). -/
def meshCoord (t : Tlr) (n a : Nat) : Nat :=
  n / ((List.range (tlrAxes t)).filter (a < ·)).foldl (fun p i => p * tlrMesh t i) 1 % tlrMesh t a
/-- The position of given coordinates. -/
def meshPos (t : Tlr) (c : Nat → Nat) : Nat := (List.range (tlrAxes t)).foldl (fun p a => p * tlrMesh t a + c a) 0

/-- The first failing check of a record (R241); `bases` are its base table entries. -/
def tlrCheck (t : Tlr) (bases : List Nat) : Option Nat :=
  let ds := tlrDims t
  let past := (List.range 6).filter (tlrRank t ≤ ·)
  let axes := (List.range 4).filter (tlrAxes t ≤ ·)
  let maps := ds.filterMap (tlrAxis t)
  let es := tlrEs t
  let bad9 :=
    bits t 63 55 ≠ 0 || bits t 1023 960 ≠ 0 || tlrRank t = 0 || 6 < tlrRank t ||
    past.any (fun d => tlrAmap t d ≠ 0 || tlrExt t d ≠ 0 || tlrBlk t d ≠ 0 || tlrStride t d ≠ 0) ||
    maps.any (fun a => tlrAxes t ≤ a) || !maps.Nodup || axes.any (fun a => tlrMesh t a ≠ 1) || tlrMods t = 0 ||
    bases.any (fun b => b / 2 ^ 76 ≠ 0)
  let inner := tlrRank t - 1
  if tlrVersion t ≠ 0x0300 then some 0x01
  else if bad9 then some 0x09
  else if ds.any (fun d => tlrExt t d = 0 || tlrBlk t d = 0) then some 0x02
  else if tlrStride t inner < es ||
      (List.range inner).any (fun d => tlrStride t d < tlrStride t (d + 1) * tlrLocal t (d + 1)) then some 0x03
  else if bases.any (fun b => b % 2 ^ 64 % es ≠ 0 || (tlrTile t && b % 64 ≠ 0)) ||
      (tlrTile t && ds.any fun d => tlrStride t d % 64 ≠ 0) then some 0x04
  else if (List.range (tlrAxes t)).foldl (fun p a => p * tlrMesh t a) 1 ≠ tlrMods t then some 0x05
  else if 2 ^ 48 ≤ ds.foldl (fun p d => p * tlrExt t d) es ||
      bases.any (fun b => 2 ^ 57 < b % 2 ^ 64 + tlrStride t 0 * tlrLocal t 0) then some 0x06
  else none
/-- The checks of both records and of the pair (R241). -/
def tlrPair (a b : Tlr) (ba bb : List Nat) : Option Nat :=
  match tlrCheck a ba with
  | some n => some n
  | none =>
    match tlrCheck b bb with
    | some n => some n
    | none =>
      if tlrRank a ≠ tlrRank b || (tlrDims a).any (fun d => tlrExt a d ≠ tlrExt b d) || tlrEs a ≠ tlrEs b
      then some 0x07 else none

/-- Owner coordinate and local index of element `i` of dimension `d` (R240). -/
def elemPlace (t : Tlr) (d i : Nat) : Nat × Nat :=
  match tlrAxis t d with
  | none => (0, i)
  | some a =>
    let b := i / tlrBlk t d
    (b % tlrMesh t a, b / tlrMesh t a * tlrBlk t d + i % tlrBlk t d)
/-- The byte offset of an element in its shard. -/
def shardOffset (t : Tlr) (is : List Nat) : Nat :=
  (is.zipIdx).foldl (fun o (i, d) => o + (elemPlace t d i).2 * tlrStride t d) 0
/-- The mesh position that an element is read from: for an axis without dimension the replica of `m` (R240). -/
def sourcePos (t : Tlr) (is : List Nat) (m : Nat) : Nat :=
  meshPos t fun a =>
    match (tlrDims t).find? fun d => tlrAxis t d = some a with
    | some d => (elemPlace t d (is[d]?.getD 0)).1
    | none => m % tlrMesh t a
/-- The blocks of dimension `d` that position `n` owns, in order. -/
def localBlocks (t : Tlr) (n d : Nat) : List Nat :=
  let nb := cdiv (tlrExt t d) (tlrBlk t d)
  match tlrAxis t d with
  | none => List.range nb
  | some a => (List.range nb).filter fun b => b % tlrMesh t a = meshCoord t n a
/-- All choices of one entry from each list, the first list most significant. -/
def choices : List (List Nat) → List (List Nat)
  | [] => [[]]
  | l :: rest => l.flatMap fun x => (choices rest).map fun y => x :: y
/-- The local blocks of position `n` in canonical order (R244). -/
def shardBlocks (t : Tlr) (n : Nat) : List (List Nat) := choices ((tlrDims t).map (localBlocks t n))
/-- The elements of a block, row-major. -/
def blockElems (t : Tlr) (b : List Nat) : List (List Nat) :=
  choices ((b.zipIdx).map fun (k, d) =>
    (List.range (tlrBlk t d)).filterMap fun i =>
      if k * tlrBlk t d + i < tlrExt t d then some (k * tlrBlk t d + i) else none)
/-- Local elements of position `n` in dimension `d`. -/
def localCount (t : Tlr) (n d : Nat) : Nat :=
  ((localBlocks t n d).map fun b => Nat.min (tlrBlk t d) (tlrExt t d - b * tlrBlk t d)).foldl (· + ·) 0
/-- Bytes from the base of the shard of position `n` to its last byte (R244). -/
def shardSpan (t : Tlr) (n : Nat) : Nat :=
  if (tlrDims t).any fun d => localCount t n d = 0 then 0
  else (tlrDims t).foldl (fun o d => o + (localCount t n d - 1) * tlrStride t d) (tlrEs t)

/-! The block of a job. -/

/-- Entries of a base table of at most 4096. -/
def splitEntries (n v : Nat) : List Nat := (List.range n).map fun i => v / 2 ^ (128 * i) % 2 ^ 128
def tableBytes (t : Tlr) : Nat := if tlrVersion t ≠ 0x0300 || 4096 < tlrMods t then 0 else 16 * tlrMods t
/-- The engine read of a base table. -/
def State.readBases (s : State) (j : Job) (t : Tlr) : (State × Word × List Nat) ⊕ (State × EngineStop) :=
  match s.jobRead j (tlrBtab t) (tableBytes t) with
  | .inr st => .inr st
  | .inl (s, p, v, _) => .inl (s, p, splitEntries (tableBytes t / 16) v)
/-- The source and destination records and the progress record of a 320-byte block (R242). -/
def blockSrc (v : Nat) : Tlr := v % 2 ^ 1024
def blockDst (v : Nat) : Tlr := v / 2 ^ 1024 % 2 ^ 1024
def blockProg (v : Nat) : Nat := v / 2 ^ 2048 % 2 ^ 512
/-- The plan that a block and its base tables give, with memory as it stands. -/
def State.planOf (s : State) (v : Nat) (sb db : List Nat) : ShardPlan :=
  { src := blockSrc v, dst := blockDst v, sb := sb, db := db, prog := blockProg v, before := { mem := s.mem, lines := s.lines } }
/-- Read the block and the base tables (R242). -/
def State.readPlan (s : State) (j : Job) (block : Word) : (State × Word × ShardPlan) ⊕ (State × EngineStop) :=
  match s.jobRead j block 320 with
  | .inr st => .inr st
  | .inl (s, p, v, _) =>
    match s.readBases { j with pts := p } (blockSrc v) with
    | .inr st => .inr st
    | .inl (s, p, sb) =>
      match s.readBases { j with pts := p } (blockDst v) with
      | .inr st => .inr st
      | .inl (s, p, db) => .inl (s, p, s.planOf v sb db)
/-- The first failing check of a record that needs no base table, of those that come before the checks which do
(R241). -/
def tlrHead (t : Tlr) : Option Nat :=
  match tlrCheck t [] with
  | some n => if n ≤ 3 || n = 9 then some n else none
  | none => none
/-- Validate a record (R241): its bases, and the first failing check. A record that fails before its bases count fails
also where they cannot be read. -/
def State.validateTlr (s : State) (j : Job) (t : Tlr) :
    (State × Word × List Nat × Option Nat) ⊕ (State × EngineStop) :=
  match s.readBases j t with
  | .inl (s, p, b) => .inl (s, p, b, tlrCheck t b)
  | .inr (s, st) =>
    match tlrHead t with
    | some n => .inl (s, j.pts, [], some n)
    | none => .inr (s, st)
/-- Validate the records of a block in turn, then the pair (R241): the plan, or the status. -/
def State.validatePlan (s : State) (j : Job) (v : Nat) :
    (State × Word × (ShardPlan ⊕ Nat)) ⊕ (State × EngineStop) :=
  match s.validateTlr j (blockSrc v) with
  | .inr st => .inr st
  | .inl (s, p, _, some n) => .inl (s, p, .inr n)
  | .inl (s, p, sb, none) =>
    match s.validateTlr { j with pts := p } (blockDst v) with
    | .inr st => .inr st
    | .inl (s, p, _, some n) => .inl (s, p, .inr n)
    | .inl (s, p, db, none) =>
      match tlrPair (blockSrc v) (blockDst v) sb db with
      | some n => .inl (s, p, .inr n)
      | none => .inl (s, p, .inl (s.planOf v sb db))
def entryBase (e : Nat) : Nat := e % 2 ^ 64
def entryModule (e : Nat) : Nat := bits e 75 64
/-- The mesh position of a module in a base table. -/
def positionOf (m : Nat) (es : List Nat) : Option Nat := es.findIdx? fun e => entryModule e = m
/-- RngHash(0, XOR of the 32 doublewords of the two records) (R243). -/
def planHash (p : ShardPlan) : Nat :=
  let dws := (List.range 16).map fun i => (p.src / 2 ^ (64 * i) % 2 ^ 64) ^^^ (p.dst / 2 ^ (64 * i) % 2 ^ 64)
  (rngHash 0 (BitVec.ofNat 64 (dws.foldl (fun a b => a ^^^ b) 0))).toNat
/-- The footprint of a job (R244). -/
def planFoot (root : Word) (m : Nat) (p : ShardPlan) : List FootRegion :=
  let region (t : Tlr) (es : List Nat) (write : Bool) : List FootRegion :=
    match positionOf m es with
    | none => []
    | some n =>
      [{ scratch := false, space := root.toNat, base := entryBase (es[n]?.getD 0), len := shardSpan t n, write := write }]
  if (tlrPair p.src p.dst p.sb p.db).isSome then [] else region p.src p.sb false ++ region p.dst p.db true

/-! RSGO and RSPROG (R242, R246, R337). -/

/-- The completion and the domain of a completion word (R242). -/
def completionWord (cluster : Nat) (w : Word) : Option (Completion × Nat) :=
  if bits w.toNat 61 48 ≠ 0 || bits w.toNat 31 28 ≠ 0 then none
  else (completionOf cluster (bits w.toNat 63 62) (bits w.toNat 27 0)).map fun c => (c, bits w.toNat 47 32)
def State.reshardsIn (s : State) (tower : Nat) : Nat :=
  s.jobs.countP fun j => towerOf j.loc = tower && (match j.kind with | .reshard .. => true | _ => false)
/-- RSGO (R242). Its footprint is that of the block as it stands at issue. -/
def execRsgo (a c : SReg) (g : PReg) (s : State) : Host.Outcome State Fault Refusal :=
  engineOp 1 g s fun s =>
    if 4 ≤ s.reshardsIn (towerOf s.cur) then s.holdIssue
    else
      match completionWord s.myCluster (s.rs c) with
      | none => s.trapAt 8 0x0B 0x42 0
      | some (done, domain) =>
        if (s.rs a).toNat % 64 ≠ 0 then s.trapAt 8 0x0B 0x42 0
        else
          let s' := s.enterJob (.reshard (s.rs a) 0 0 none) domain [] done 0
          match s'.jobs.getLast? with
          | none => s'
          | some j =>
            match s'.readPlan j (s.rs a) with
            | .inl (_, _, p) => s'.putJob { j with foot := planFoot j.root s.module.toNat p }
            | .inr _ => s'
/-- The live CURSOR and STATUS of a running job for a progress record in an address space. -/
def State.liveReshard (s : State) (root block : Word) (but : Nat) : Option (Nat × Nat) :=
  s.jobs.findSome? fun j =>
    match j.kind with
    | .reshard b cursor _ (some p) =>
      if b = block && j.root = root && j.id ≠ but then some (cursor, bits p.prog 15 8) else none
    | _ => none
/-- RSPROG (R246, R337). -/
def execRsprog (d a : SReg) (g : PReg) (s : State) : Host.Outcome State Fault Refusal :=
  engineOp 1 g s fun s =>
    let block := s.rs a
    if block.toNat % 64 ≠ 0 then s.trapAt 8 0x0B 0x42 0
    else
      match s.liveReshard s.me.ptroot block 0 with
      | some (cursor, status) =>
        s.result 8 6 (.scalar d (BitVec.ofNat 64 (cursor % 2 ^ 48 * 2 ^ 16 + status * 2 ^ 8 + 1)) false)
      | none =>
        let c := chase s s.me.ptroot (block + 256) .read (!s.me.priv)
        match c.x.st with
        | .hole => s.fatalAddress
        | .ok =>
          let r := (s.readLines c.tables).lineLoad (coreOf s.cur) (wmax s.me.pts c.seen) c.x.e c.x.pa s.retired
          let cursor := r.data / 2 ^ 64 % 2 ^ 48
          (r.s.modMe fun k => { k with pts := r.pts }).outstanding
            [.scalar d (BitVec.ofNat 64 (cursor * 2 ^ 16 + r.data % 2 ^ 16)) false] false
        | .format | .absent | .protect | .chain => (s.readLines c.tables).outstanding [.scalar d 0x1204#64 false] false

/-! The job (R244, R245). -/

/-- A progress record with another STATE and STATUS (R243). -/
def progressOf (old state status : Nat) : ShardEnd :=
  { old := old, state := state, status := status, cursor := bits old 127 64, bytes := bits old 191 128
    chk := bits old 255 192 }
/-- The first 32 bytes of a progress record (R243). -/
def ShardEnd.word (e : ShardEnd) : Nat :=
  e.state + e.status * 2 ^ 8 + bits e.old 63 16 * 2 ^ 16 + e.cursor % 2 ^ 64 * 2 ^ 64 + e.bytes % 2 ^ 64 * 2 ^ 128 +
    e.chk * 2 ^ 192
/-- Write the progress record as an engine write (R337). -/
def State.writeProgress (s : State) (j : Job) (block : Word) (e : ShardEnd) : (State × Word) ⊕ (State × EngineStop) :=
  State.jobWrite j false 2 s j.pts (block + 256) 32 e.word
/-- Completion of the job (R244). -/
def State.endReshard (s : State) (j : Job) : State := (s.arriveOnce j).dropJob j.id
/-- Write the record and complete; the job waits for a record whose page is absent (R167), and where the record cannot be
written only a fault record is posted (log entry 54). -/
def State.finishReshard (s : State) (j : Job) (block : Word) (e : ShardEnd) : State :=
  match s.writeProgress j block e with
  | .inl r => r.1.endReshard { j with pts := r.2 }
  | .inr (t, .absent va) => t.jobRequest { j with ending := some e, refused := false } va
  | .inr (t, .status _) | .inr (t, .hole) => (t.faultRecord e.status j.loc).endReshard j
/-- The progress record as it stands, zero where it cannot be read. -/
def State.oldProgress (s : State) (j : Job) (block : Word) : State × Nat :=
  match s.jobRead j (block + 256) 64 with
  | .inl (s, _, v, _) => (s, v)
  | .inr (s, _) => (s, 0)
/-- The STATUS of a job that an engine access stops (R245, R26, R237; log entry 54). -/
def stopStatus (n : Nat) : Nat := if n = 3 then 0x12 else n
/-- The plan of a job that resumes a block: its sources are to stand as the stopped job found them (R11, R244, R245). -/
def State.resumed (s : State) (root block : Word) (state : Nat) (p : ShardPlan) : ShardPlan :=
  match s.shardBefore.find? fun e => e.root = root && e.block = block with
  | some e => if state = 0 then p else { p with before := e.before }
  | none => p
/-- The start of a job that no earlier one holds (R200, R244): the checks before any byte moves, then STATE 1. Where its block
has changed since its issue so that an earlier job holds it now, it waits. -/
def State.startReshard (s : State) (j : Job) (block : Word) : Host.Outcome State Fault Refusal :=
  let fail (s : State) (n : Nat) : Host.Outcome State Fault Refusal :=
    let r := s.oldProgress j block
    .next (r.1.finishReshard { j with refused := false } block (progressOf r.2 4 n))
  let stop (s : State) (st : EngineStop) : Host.Outcome State Fault Refusal :=
    match st with
    | .hole => .fault .reservedAddress
    | .absent va => .next (s.jobRequest j va)
    | .status n => fail s (stopStatus n)
  if j.refused then fail s 0x11
  else
    match s.jobRead j block 320 with
    | .inr (t, st) => stop t st
    | .inl (t, pts, v, _) =>
      let j := { j with pts := pts }
      let old := blockProg v
      let st := bits old 7 0
      -- A refused job reports 0x0B in STATUS; the live job's later writes replace it.
      if (s.liveReshard j.root block j.id).isSome then .next (t.finishReshard j block (progressOf old st 0x0B))
      else if st = 2 then .next (t.endReshard j)
      else
        match t.validatePlan j v with
        | .inr (u, st) => stop u st
        | .inl (u, pts, .inr n) => .next (u.finishReshard { j with pts := pts } block (progressOf old 4 n))
        | .inl (u, pts, .inl p) =>
          let j := { j with pts := pts }
          let e := progressOf old 1 (bits old 15 8)
          if st ≠ 0 && e.chk ≠ planHash p then .next (u.finishReshard j block { e with state := 4, status := 0x0A })
          else
            let e := { e with chk := planHash p, cursor := if st = 0 then 0 else e.cursor, bytes := if st = 0 then 0 else e.bytes }
            let j := { j with foot := planFoot j.root s.module.toNat p }
            if u.jobHeld j then .next (u.putJob j)
            else
            match u.writeProgress j block e with
            | .inr (u, st) => stop u st
            | .inl r =>
              .next (r.1.putJob { j with
                pts := r.2, started := true
                kind := .reshard block e.cursor e.bytes (some (s.resumed j.root block st p)) })

/-- `n` bytes of one line of a source that a job reads are not what they were when the job began (R11, R245, R274). -/
def State.changed (s : State) (root : Word) (user : Bool) (b : Before) (va : Word) (n : Nat) : Bool :=
  let o := chase { s with mem := b.mem, lines := b.lines } root va .read user
  let c := chase s root va .read user
  o.x.st == .ok && c.x.st == .ok && loadBytes b.mem o.x.pa n != loadBytes s.mem c.x.pa n
/-- The bytes that a job takes from a source: those that have changed since it began are undefined, and free here. -/
def State.steady (s : State) (root : Word) (user : Bool) (b : Before) (va : Word) (n v : Nat) : State × Nat :=
  ({ s with freeCount := s.freeCount + n },
    (List.range n).foldr (fun i acc =>
      (if s.changed root user b (va + BitVec.ofNat 64 i) 1 then (Config.freeByte (s.freeCount + i)).toNat
        else v / 256 ^ i % 256) + 256 * acc) 0)

/-- One element of a block: source position, source address, destination address. -/
abbrev PieceElem := Nat × Nat × Nat
/-- The elements of a destination block with their places, in ascending source position (R244). -/
def blockPieces (p : ShardPlan) (m n : Nat) (b : List Nat) : List PieceElem :=
  let l := (blockElems p.dst b).map fun is =>
    let sp := sourcePos p.src is m
    (sp, entryBase (p.sb[sp]?.getD 0) + shardOffset p.src is, entryBase (p.db[n]?.getD 0) + shardOffset p.dst is)
  (List.range (tlrMods p.src)).flatMap fun k => l.filter fun e => e.1 = k
/-- Put one byte into a table of lines: mask, data, poison. -/
def putByte (t : Table (Nat × Nat × Bool)) (a v : Nat) (poison : Bool) : Table (Nat × Nat × Bool) :=
  let d := (0, 0, false)
  let o := Table.get d t (a / 64)
  let i := a % 64
  let data := o.2.1 - o.2.1 / 256 ^ i % 256 * 256 ^ i + v * 256 ^ i
  Table.set d t (a / 64) (o.1 ||| 2 ^ i, data, o.2.2 || poison)
/-- Gather the bytes of the elements: local ones from memory, remote ones from `remote`, in order. -/
def gatherPieces (p : ShardPlan) (m : Nat) (j : Job) : List PieceElem → List Byte → Table (Nat × Nat × Bool) → State →
    Word → (State × Word × Table (Nat × Nat × Bool)) ⊕ (State × EngineStop)
  | [], _, t, s, pts => .inl (s, pts, t)
  | (sp, sa, da) :: rest, remote, t, s, pts =>
    let es := tlrEs p.dst
    let put (t : Table (Nat × Nat × Bool)) (v : Nat) (poison : Bool) : Table (Nat × Nat × Bool) :=
      (List.range es).foldl (fun t i => putByte t (da + i) (v / 256 ^ i % 256) poison) t
    if entryModule (p.sb[sp]?.getD 0) = m then
      match s.jobRead { j with pts := pts } (BitVec.ofNat 64 sa) es with
      | .inr st => .inr st
      | .inl (s, pts, v, poison) =>
        let q := s.steady j.root j.user p.before (BitVec.ofNat 64 sa) es v
        gatherPieces p m j rest remote (put t q.2 poison) q.1 pts
    else
      gatherPieces p m j rest (remote.drop es)
        (put t ((remote.take es).foldr (fun b acc => b.toNat + 256 * acc) 0) false) s pts
/-- Write the gathered lines, in ascending order (R187); what stands before a stop is written (R245). -/
def writeLines (j : Job) : Table (Nat × Nat × Bool) → State → Word → (State × Word) ⊕ (State × EngineStop)
  | [], s, pts => .inl (s, pts)
  | (line, mask, data, poison) :: rest, s, pts =>
    match s.jobChase j.root j.user (BitVec.ofNat 64 (64 * line)) .write with
    | .inr st => .inr (s.walked j.root j.user (BitVec.ofNat 64 (64 * line)) .write, st)
    | .inl c =>
      let old := loadBytes s.mem (c.x.pa / 64 * 64) 64
      let pick := (List.range 64).foldr (fun i acc => (if mask / 2 ^ i % 2 = 1 then 255 else 0) + 256 * acc) 0
      let new := mergeBits (BitVec.ofNat 512 pick) (BitVec.ofNat 512 old) (BitVec.ofNat 512 data)
      let r := s.engineStore { j with pts := pts } { c with x := { c.x with pa := c.x.pa / 64 * 64 } } 64 new.toNat poison
        (!poison && mask + 1 = 2 ^ 64) (BitVec.ofNat 64 mask)
      writeLines j rest r.1 r.2
/-- The progress record of a running job. -/
def ShardPlan.progress (p : ShardPlan) (state status cursor bytes : Nat) : ShardEnd :=
  { old := p.prog, state := state, status := status, cursor := cursor, bytes := bytes, chk := planHash p }
/-- What is kept of memory for the job that resumes a block (R11, R245). -/
def State.keepBefore (s : State) (root block : Word) (b : Option Before) : State :=
  { s with shardBefore := (s.shardBefore.filter fun e => !(e.root = root && e.block = block)) ++
      match b with | some b => [{ root := root, block := block, before := b }] | none => [] }
/-- What is kept where every running job is cut off, and resumes from its progress record (R11, R244). -/
def State.keepRunning (s : State) : List ShardBefore :=
  (s.jobs.foldl (fun (t : State) j =>
    match j.kind with
    | .reshard block _ _ (some p) => t.keepBefore j.root block (some p.before)
    | .reshard _ _ _ none | .copy .. | .reloc .. | .msweep .. | .smap .. | .swb .. | .preq _ | .fampw _ | .task .. | .tdep .. | .coll .. => t) s).shardBefore
/-- The job stops at a block boundary (R245). -/
def State.stopReshard (s : State) (j : Job) (st status : Nat) : State :=
  match j.kind with
  | .reshard block cursor bytes (some p) =>
    (s.keepBefore j.root block (some p.before)).finishReshard { j with refused := false } block (p.progress st status cursor bytes)
  | .reshard _ _ _ none | .copy .. | .reloc .. | .msweep .. | .smap .. | .swb .. | .preq _ | .fampw _ | .task .. | .tdep .. | .coll .. => s
/-- One block of a running job. -/
def State.reshardStep (s : State) (j : Job) (block : Word) (cursor bytes : Nat) (p : ShardPlan) (remote : List Byte) :
    Host.Outcome State Fault Refusal :=
  if j.refused then .next (s.stopReshard j 4 0x11)
  else
    let stop (s : State) (st : EngineStop) : Host.Outcome State Fault Refusal :=
      match st with
      | .hole => .fault .reservedAddress
      | .absent va => .next (s.jobRequest j va)
      | .status n => .next (s.stopReshard j 4 (stopStatus n))
    let m := s.module.toNat
    match (positionOf m p.db).bind fun n => ((shardBlocks p.dst n)[cursor]?).map fun b => (n, b) with
    | none => .next ((s.keepBefore j.root block none).finishReshard j block (p.progress 2 0 cursor bytes))
    | some (n, b) =>
      let ps := blockPieces p m n b
      match gatherPieces p m j ps remote [] s j.pts with
      | .inr (s, st) => stop s st
      | .inl (s, pts, t) =>
        match writeLines j t s pts with
        | .inr (s, st) => stop s st
        | .inl (s, pts) =>
          let bytes := bytes + ps.length * tlrEs p.dst
          match s.writeProgress { j with pts := pts } block (p.progress 1 (bits p.prog 15 8) (cursor + 1) bytes) with
          | .inr (s, st) => stop s st
          | .inl r =>
            .next (r.1.putJob { j with pts := r.2, pos := j.pos + 1, kind := .reshard block (cursor + 1) bytes (some p) })
/-- The other modules that send pieces of the next block of a running job (R244). -/
def State.reshardPeers (s : State) (j : Job) : List Nat :=
  match j.kind with
  | .reshard _ cursor _ (some p) =>
    let m := s.module.toNat
    match (positionOf m p.db).bind fun n => ((shardBlocks p.dst n)[cursor]?).map fun b => (n, b) with
    | none => []
    | some (n, b) => ((blockPieces p m n b).map fun e => entryModule (p.sb[e.1]?.getD 0)).filter fun k => k ≠ m
  | .reshard _ _ _ none | .copy .. | .reloc .. | .msweep .. | .smap .. | .swb .. | .preq _ | .fampw _ | .task .. | .tdep .. | .coll .. => []
/-- RESHARD_BLOCK: the start of a job, one of its blocks, or its end (R244). `remote` holds the bytes of the pieces
that other modules send, in order. -/
def execReshardBlock (id : Nat) (remote : List Byte) (s : State) : Host.Outcome State Fault Refusal :=
  match s.job id with
  | none => .next s
  | some j =>
    match j.kind with
    | .reshard block cursor bytes plan =>
      if j.request.isSome then .next s
      else match j.ending, plan with
        | some e, _ =>
          .next (if j.refused then (s.faultRecord e.status j.loc).endReshard j else s.finishReshard j block e)
        | none, none => if s.jobHeld j then .next s else s.startReshard j block
        | none, some p => s.reshardStep j block cursor bytes p remote
    | .copy .. | .reloc .. | .msweep .. | .smap .. | .swb .. | .preq _ | .fampw _ | .task .. | .tdep .. | .coll .. =>
      .next s
/-- RESHARD_STOP (R245). -/
def execReshardStop (id : Nat) (why : ReshardStop) (s : State) : Host.Outcome State Fault Refusal :=
  match s.job id with
  | none => .next s
  | some j =>
    match j.kind with
    | .reshard _ _ _ plan =>
      .next (if plan.isNone || j.ending.isSome then s else match why with
        | .preempted => s.stopReshard j 3 0x13
        | .linkLost => s.stopReshard j 4 0x10
        | .pageRefused => s.stopReshard j 4 0x11
        | .protection => s.stopReshard j 4 0x12)
    | .copy .. | .reloc .. | .msweep .. | .smap .. | .swb .. | .preq _ | .fampw _ | .task .. | .tdep .. | .coll .. =>
      .next s

end Sys2Proof.Machine
end

