-- ==== Sys2Proof/Machine/Collective.lean ====
section
/-! DEFINITION. Plane collectives: COLL, PCNT, PWAIT, PCANCEL and the events of the PCE (R189, R265 to R274, R294, R329,
R384). -/

namespace Sys2Proof.Machine

/-! The forms. -/

def State.activeColls (s : State) : Nat := s.jobs.countP fun j => match j.kind with | .coll .. => true | _ => false
/-- The counter that a word names, in a bank of the context's set (R265). -/
def State.counterWord (s : State) (w : Word) (n : Nat) : Option Nat :=
  match scratchWord w with
  | some (b, o) => if s.bankOwned b && o + n ≤ bankSize then some (scratchPa s.myCluster b o) else none
  | none => none
/-- A form that takes a counter (R265, R329). -/
def State.withCounter (s : State) (w : Word) (n : Nat) (f : Nat → State) : State :=
  match s.counterWord w n with
  | some pa => f pa
  | none => s.trapAt 8 0x0B 0x51 0
/-- The byte of a counter behind a COLL of job `id` that has not started: as its start leaves it, with the PCANCEL that has
come since (R265, R267, log entry 42). -/
def State.byteAhead (s : State) (id pa : Nat) : Nat := if s.precancels.contains (id, pa) then 0xC0 else 0
/-- PCNT or PWAIT has acted on the tile of the counter at `pa`: where the tile is final, the form has shown its FIN
(`shows`) and has acquired it (`acquires`), so that the program may write it once it has both (R274). -/
def State.noteTile (s : State) (pa : Nat) (shows acquires : Bool) : State :=
  match s.planeCounter pa with
  | none => s
  | some (j, c, y) =>
    match j.kind with
    | .coll r _ =>
      let y' := { y with shown := y.shown || shows, acquired := y.acquired || acquires }
      if y.fin then s.putJob { j with kind := .coll r (some { c with tiles := c.tiles.set (pa - c.cnt) y' }) } else s
    | .copy .. | .reloc .. | .msweep .. | .smap .. | .swb .. | .preq _ | .fampw _ | .task .. | .tdep .. | .reshard .. => s
/-- A PWAIT for `k` planes goes on: it acquires the tile as it is published (R189, R271). One for every plane shows FIN
(R274). -/
def State.acquireTile (s : State) (pa k : Nat) : State :=
  let full := match s.planeCounter pa with
    | some (_, c, _) => decide (c.planeCount ≤ k)
    | none => false
  (s.acquire pa).noteTile pa full true

/-- COLL (R265, R267, R294). -/
def execColl (a c : SReg) (g : PReg) (s : State) : Host.Outcome State Fault Refusal :=
  engineOp 1 g s fun s =>
    if 16 ≤ s.activeColls then s.holdIssue
    else
      match completionWord s.myCluster (s.rs c) with
      | none => s.trapAt 8 0x0B 0x50 0
      | some (done, domain) =>
        if (s.rs a).toNat % 64 ≠ 0 then s.trapAt 8 0x0B 0x50 0
        else
          let s' := s.enterJob (.coll (s.rs a) none) domain [] done 0
          match s'.jobs.getLast? with
          | none => s'
          | some j =>
            match s'.jobRead j (s.rs a) 64 with
            | .inl (_, _, r, _) => s'.putJob { j with foot := collFoot j r }
            | .inr _ => s'
/-- The byte of the counter at `pa` as the forms of the acting context find it (R265, R271): a free one behind a COLL whose
record nothing shows yet (log entry 42). -/
def State.counterByte (s : State) (pa : Nat) : Nat :=
  match s.counterAhead s.me.work pa, s.planeCounter pa with
  | some (j, true), _ => s.byteAhead j.id pa
  | some (_, false), _ => (Config.freeByte s.freeCount).toNat
  | none, some (_, _, y) => y.byte
  | none, none => s.portBytes true pa 1
/-- PCNT (R271): it acquires nothing. The PCE reads the line of the counter (R21). -/
def execPcnt (d t : SReg) (g : PReg) (s : State) : Host.Outcome State Fault Refusal :=
  engineOp 1 g s fun s => s.withCounter (s.rs t) 1 fun pa =>
    let v := s.counterByte pa
    let u := match s.counterAhead s.me.work pa with
      | some (_, true) => s
      | some (_, false) => s.drawn
      | none => s.noteTile pa true false
    (u.barrierLine pa).result 8 6 (.scalar d (BitVec.ofNat 64 v) false)
/-- PWAIT (R189, R271). A counter of no active collective is acquired as it was published last. Behind a COLL that has not
started it waits until that one's tile has its planes (R265). -/
def execPwait (t : SReg) (k : Fin 64) (g : PReg) (s : State) : Host.Outcome State Fault Refusal :=
  engineOp 1 g s fun s => s.withCounter (s.rs t) 1 fun pa =>
    if s.issue.ended.contains (.planes pa k.val) then s.acquireTile pa k.val
    else
      match s.counterAhead s.me.work pa, s.planeCounter pa with
      | some (j, _), _ =>
        if k.val = 0 || s.precancels.contains (j.id, pa) then s.acquire pa else s.waitFor 8 (.pwait t k g) (.planes pa k.val)
      | none, none => s.acquire pa
      | none, some (_, c, y) =>
        if planesReached c y k.val then s.acquireTile pa k.val else s.waitFor 8 (.pwait t k g) (.planes pa k.val)
/-- Freeze the tile whose counter stands at `pa`, if a collective is active there and the tile is open (R271). Where the
counters are lost the collective ends (R26). -/
def State.freezeCounter (s : State) (pa : Nat) : State :=
  match s.planeCounter pa with
  | none => s
  | some (j, c, y) =>
    match j.kind with
    | .coll r _ =>
      let y' := y.freeze
      let c' := { c with tiles := c.tiles.set (pa - c.cnt) y' }
      if y.fin then s
      else if s.countersLost c then (s.faultRecord 0x0B j.loc).putJob { j with kind := .coll r (some c'.lost) }
      else (s.putJob { j with kind := .coll r (some c') }).counterWrite pa y'.byte
    | .copy .. | .reloc .. | .msweep .. | .smap .. | .swb .. | .preq _ | .fampw _ | .task .. | .tdep .. | .reshard .. => s
/-- A PCANCEL of a work reaches one counter behind the COLLs before job `before`: a tile of one of them that has not started
will start frozen (R265). -/
def State.cancelBehind (s : State) (work before pa : Nat) : State :=
  match s.counterAhead work pa before with
  | some (j, _) =>
    if s.precancels.contains (j.id, pa) then s else { s with precancels := s.precancels ++ [(j.id, pa)] }
  | none => s.freezeCounter pa
/-- A PCANCEL of the acting context reaches one counter. -/
def State.cancelCounter (s : State) (pa : Nat) : State := s.cancelBehind s.me.work s.nextId pa
/-- PCANCEL (R271). -/
def execPcancel (t n : SReg) (g : PReg) (s : State) : Host.Outcome State Fault Refusal :=
  engineOp 1 g s fun s =>
    let k := (s.rs n).toNat
    if k = 0 || 65536 < k then s.trapAt 8 0x0B 0x51 0
    else s.withCounter (s.rs t) k fun pa =>
      ((List.range k).foldl (fun (s : State) i => s.cancelCounter (pa + i)) s).wakePlanes

/-! The start of a job (R267, R384). -/

/-- A PCANCEL that waited for a COLL waits no more. -/
def State.uncancel (s : State) (p : Nat × Nat) : State := { s with precancels := s.precancels.filter fun q => q ≠ p }
/-- The PCANCELs that waited for the tiles of a COLL have taken effect at its start (R265). -/
def State.startedColl (s : State) (id : Nat) (c : Coll) : State :=
  { s with precancels := s.precancels.filter fun p => p.1 ≠ id || !(c.cnt ≤ p.2 && p.2 < c.cnt + c.tiles.length) }
/-- The job of a COLL is gone. Where it has not proceeded it has left the counters unchanged, and the PCANCELs behind it act on
what stands before it (R265, R267). -/
def State.dropColl (s : State) (j : Job) : State :=
  (s.precancels.filter fun p => p.1 = j.id).foldl (fun (t : State) p => (t.uncancel p).cancelBehind j.work j.id p.2)
    (s.dropJob j.id)
/-- PCANCELs whose COLL turns out to give their counter no tile: its record has shown another, or it has started (R265). -/
def State.misplaced (s : State) : List (Job × Nat) :=
  s.precancels.filterMap fun p => (s.job p.1).bind fun j => if (s.tileAhead j p.2).isNone then some (j, p.2) else none
/-- These act on what stands before that COLL; then every PWAIT ends whose condition holds (R265, R271). -/
def State.settlePlanes (s : State) : State :=
  (s.misplaced.foldl (fun (t : State) (j, pa) => (t.uncancel (j.id, pa)).cancelBehind j.work j.id pa) s).wakePlanes
/-- Some PWAIT ends, or some PCANCEL has still to act. -/
def State.planesDue (s : State) : Bool :=
  s.misplaced ≠ [] || s.places.any fun l => (s.ctx l).woken.isNone && (s.planesEnd (s.ctx l)).isSome
/-- Write OUT and report completion (R266, R274). Where OUT cannot be written the report still comes (R384). -/
def State.endColl (s : State) (j : Job) (record : Word) (result drops whole : Nat) : Host.Outcome State Fault Refusal :=
  let v := drops % 2 ^ 32 + result * 2 ^ 32 + whole * 2 ^ 40
  match State.jobWrite j false 2 s j.pts (record + 48) 8 v with
  | .inl r => .next (((r.1.arriveOnce { j with pts := r.2 }).dropColl j).wakePlanes)
  | .inr (_, .hole) => .fault .reservedAddress
  | .inr (s, .absent va) =>
    if j.refusedPage va then .next (((s.faultRecord result j.loc).arriveOnce j).dropColl j).wakePlanes
    else .next (s.jobRequest j va)
  | .inr (s, .status _) => .next (((s.faultRecord result j.loc).arriveOnce j).dropColl j).wakePlanes
/-- An element of the source, exactly, in FP32; none where it could not be read (R268, R384). -/
def sourceF32 (fmt : Nat) (x : Option Nat) : BitVec 32 :=
  match x with
  | none => 0x7FC00000#32
  | some n =>
    if fmt = 0 then BitVec.ofNat 32 n
    else if fmt = 1 then BitVec.ofNat 32 (n * 65536)
    else BitVec.ofNat 32 (fmtF32.rne (fmtF16.decode n))
/-- Read the lines of `n` bytes from `va` on, each once: they stay with the job (R294). With `soft`, a line that cannot be
read or is poisoned stays as a poisoned line and posts a fault record (R384). -/
def State.readOnce (soft : Bool) : Nat → State → Job → Word → Nat → State × Job × Option EngineStop
  | 0, s, j, _, _ => (s, j, none)
  | fuel + 1, s, j, va, n =>
    let k := Nat.min n (64 - va.toNat % 64)
    let line := va.toNat / 64
    let go (s : State) (j : Job) := State.readOnce soft fuel s j (va + BitVec.ofNat 64 k) (n - k)
    let w := s.walked j.root j.user va .read
    let bad := go (w.faultRecord 0x0A j.loc) { j with src := j.src ++ [(line, 0, true)] }
    if n = 0 then (s, j, none)
    else if (j.src.lookup line).isSome then go s j
    else
      match s.jobChase j.root j.user va .read with
      | .inl c =>
        let r := s.engineLoad j.pts c
        let s := if soft && r.poison then r.s.faultRecord 0x0A j.loc else r.s
        go s { j with pts := r.pts, src := j.src ++ [(line, r.data, r.poison)] }
      | .inr (.absent a) => if soft && j.refusedPage a then bad else (w, j, some (.absent a))
      | .inr (.status n) => if soft then bad else (w, j, some (.status n))
      | .inr .hole => (w, j, some .hole)
/-- A member of the group is reached over a link without PLANE: directly, or by the link by which its copies go (R272, R273,
log entry 74). -/
def State.foreignGroup (s : State) (group : List Nat) : Bool :=
  (s.links.toList.any fun l => l.up && !l.plane && group.contains l.partner.toNat) ||
    group.any fun m => m ≠ s.module.toNat && (s.link (s.linkTo m)).up && !(s.link (s.linkTo m)).plane
/-- The collective of a record with its group table (R266, R272). -/
def collOf (s : State) (j : Job) (r : Nat) (group : List Nat) : Coll :=
  let c := Coll.ofRecord j.loc r
  { c with group := group, whole := !c.plane || c.version = 0x0200 || s.foreignGroup group }
/-- Enter this module's own tile `t` at its local destination, if it has one. -/
def Coll.contribute (c : Coll) (t : Nat) (vs : List (BitVec 32)) : Coll :=
  match c.destOf t c.rank with
  | none => c
  | some u =>
    let h := tileHeader vs
    { c with tiles := c.tiles.modify u fun y =>
        { y with headers := y.headers ++ [(c.rank, h.1, h.2)], wholes := y.wholes ++ [(c.rank, vs)] } }
/-- The local contributions of a job, read from its source (R268). -/
def Coll.contributeAll (c : Coll) (es : List (BitVec 32)) : Coll :=
  (List.range c.tileCount).foldl (fun c t => Coll.contribute c t ((es.drop (256 * t)).take 256)) c
/-- Read what is still unread of the source, and enter this module's contributions (R268, R384). -/
def State.readSource (s : State) (j : Job) (record : Word) (c : Coll) : Host.Outcome State Fault Refusal :=
  let es := c.srcBytes
  let n := c.tileCount * 256
  let r := State.readOnce true (n * es / 64 + 2) s j c.src (n * es)
  match r.2.2 with
  | some .hole => .fault .reservedAddress
  | some (.absent va) => .next (r.1.jobRequest r.2.1 va)
  | some (.status _) => .next (r.1.putJob r.2.1)
  | none =>
    let l := (List.range n).map fun i => r.2.1.elem (c.src.toNat + es * i) es
    let c := { c with read := true, result := if c.result = 0 && l.any Option.isNone then 0x0A else c.result }
    .next (r.1.putJob { r.2.1 with src := [], kind := .coll record (some (c.contributeAll (l.map (sourceF32 c.fmt)))) })
/-- A collective as the PCANCELs behind it leave it at its start (R265, R271). -/
def State.precancelled (s : State) (id : Nat) (c : Coll) : Coll :=
  { c with tiles := (c.tiles.zipIdx).map fun (y, i) => if s.precancels.contains (id, c.cnt + i) then y.freeze else y }
/-- A collective at its start whose tiles in a list a store has reached since its issue (R11, R274). -/
def Coll.spoilt (c : Coll) (stale : List Nat) : Coll :=
  { c with tiles := (c.tiles.zipIdx).map fun (y, i) => { y with spoiled := stale.contains i } }
/-- The job proceeds after its checks: it is active, its counters are zero, then it reads its source (R267, R268). The
tiles of a COLL whose work has ended before are frozen at once (R274, log entry 79), and so are those that a PCANCEL behind it
has cancelled (R265). -/
def State.runColl (s : State) (j : Job) (record : Word) (c : Coll) : Host.Outcome State Fault Refusal :=
  let lost := s.countersLost c
  let s := if lost then s.faultRecord 0x0B j.loc else s.counterWrites c
  let c := if lost then c.lost else c
  let c := { c.spoilt j.stale with read := !c.contributes }
  let early := j.ended.isSome || s.precancels.any fun p => p.1 = j.id
  let c := if j.ended.isSome then c.frozen else s.precancelled j.id c
  let s := if early && !lost then s.counterWrites c else s
  let j := { j with started := true, src := [], stale := [], kind := .coll record (some c) }
  let s := (s.startedColl j.id c).putJob j
  let s := if early || lost then s.wakePlanes else s
  if c.read then .next s else s.readSource j record c
/-- The record or its group table cannot be read (R384). -/
def State.collUnread (s : State) (j : Job) (record : Word) (st : Option EngineStop) :
    Host.Outcome State Fault Refusal :=
  match st with
  | some .hole => .fault .reservedAddress
  | some (.absent va) =>
    if j.refusedPage va then (s.faultRecord 0x09 j.loc).endColl j record 0x09 0 0 else .next (s.jobRequest j va)
  | some (.status _) | none => (s.faultRecord 0x09 j.loc).endColl j record 0x09 0 0
/-- The start of a job: the record, its checks, its group table (R267). What it has read it reads no more (R294). Where
the record gives it a footprint that an earlier job or task meets, it waits for that one (R200). -/
def State.startColl (s : State) (j : Job) (record : Word) : Host.Outcome State Fault Refusal :=
  let q := State.readOnce false 2 s j record 64
  match q.2.2, q.2.1.kept record.toNat 64 with
  | some st, _ => q.1.collUnread q.2.1 record (some st)
  | none, none => q.1.collUnread q.2.1 record none
  | none, some r =>
    let j := { q.2.1 with foot := collFoot j r }
    match q.1.collCheck j r with
    | some n => q.1.endColl j record n 0 0
    | none =>
      if q.1.jobHeld j then .next (q.1.putJob j)
      else
      let n := bits r 59 48 + 1
      let table := bits r 383 320
      let t := State.readOnce false (n / 32 + 2) q.1 j (BitVec.ofNat 64 table) (2 * n)
      match t.2.2, t.2.1.kept table (2 * n) with
      | some st, _ => t.1.collUnread t.2.1 record (some st)
      | none, none => t.1.collUnread t.2.1 record none
      | none, some g =>
        match t.1.groupCheck r (groupOf n g) with
        | some m => t.1.endColl t.2.1 record m 0 0
        | none => t.1.runColl t.2.1 record (collOf t.1 t.2.1 r (groupOf n g))

/-! Planes at their tiles (R269 to R272, R384). -/

/-- What has been written for a counter's tile can be acquired through it (R189). -/
def State.publish (s : State) (pa : Nat) (pts : Word) : State :=
  let r := Table.get (0, 0) s.releases pa
  { s with releases := Table.set (0, 0) s.releases pa (wmax r.1 pts, r.2) }
/-- Put a collective's tile with its counter, and let the waiters see it. Where the counters are lost the collective ends
(R26). -/
def State.setTile (s : State) (j : Job) (record : Word) (c : Coll) (u : Nat) (y : CollTile) : State :=
  let c' := { c with tiles := c.tiles.set u y }
  if s.countersLost c then
    ((s.faultRecord 0x0B j.loc).putJob { j with kind := .coll record (some c'.lost) }).wakePlanes
  else
  let s := s.putJob { j with kind := .coll record (some c') }
  if c.version = 0x0200 then s
  else
    let pa := c.cnt + u
    ((s.counterWrite pa y.byte).publish pa j.pts).wakePlanes
/-- Write `n` bytes of a destination tile line by line; what stands before a stop is written. -/
def State.writeTile (j : Job) : Nat → State → Word → Word → Nat → Nat → State × Word × Option EngineStop
  | 0, s, pts, _, _, _ => (s, pts, none)
  | fuel + 1, s, pts, va, n, v =>
    if n = 0 then (s, pts, none)
    else
      let k := Nat.min n (64 - va.toNat % 64)
      match State.jobWrite j false 2 s pts va k (v % 2 ^ (8 * k)) with
      | .inr (s, st) => (s, pts, some st)
      | .inl (s, pts) => State.writeTile j fuel s pts (va + BitVec.ofNat 64 k) (n - k) (v / 2 ^ (8 * k))
/-- What stands in the way of a write of `n` bytes, found before any is written (R271, log entry 80), with the state after the
walk that meets it (R21). -/
def State.writeStop (j : Job) : Nat → State → Word → Nat → Option (State × EngineStop)
  | 0, _, _, _ => none
  | fuel + 1, s, va, n =>
    if n = 0 then none
    else
      let k := Nat.min n (64 - va.toNat % 64)
      match s.jobChase j.root j.user va .write with
      | .inr st => some (s.walked j.root j.user va .write, st)
      | .inl _ => State.writeStop j fuel s (va + BitVec.ofNat 64 k) (n - k)
/-- Apply what is ready at tile `u` (R269, R384). Nothing of it is written before every line of the tile can be: the tile
always holds the prefix that its counter names (R271). Where its bank is retired while it is written (R26), RESULT is 0x0B and
what stands in the rest of the tile is free (log entry 14). The data of a tile that a breach has reached are free (R11). -/
def State.applyTile (s : State) (j : Job) (record : Word) (c : Coll) (u : Nat) : Host.Outcome State Fault Refusal :=
  match c.tiles[u]? with
  | none => .next s
  | some y =>
    let k := c.ready u y
    if y.fin || k ≤ y.k then .next s
    else
      let va := c.tileVa u
      let fail (s : State) : Host.Outcome State Fault Refusal :=
        .next ((s.faultRecord 0x0B j.loc).setTile j record { c with result := if c.result = 0 then 0x0B else c.result } u y.freeze)
      match State.writeStop j 18 s va 1024 with
      | some (_, .hole) => .fault .reservedAddress
      | some (t, .absent a) => if j.refusedPage a then fail t else .next (t.jobRequest j a)
      | some (t, .status _) => fail t
      | none =>
        let v := if y.spoiled then freeBytesFrom s.freeCount 1024 else packBits 32 (c.tileValue u y k)
        let s := if y.spoiled then { s with freeCount := s.freeCount + 1024 } else s
        let r := State.writeTile j 18 s j.pts va 1024 v
        match r.2.2 with
        | some _ => fail (State.freeTile j 18 r.1 va 1024)
        | none => .next (r.1.setTile { j with pts := r.2.1 } record c u { y with k := k, fin := decide (k = c.planeCount) })
/-- COLL_JOB_START: the start of a job (R267); a job that waited for a page of its source or destination goes on. -/
def execCollJobStart (id : Nat) (s : State) : Host.Outcome State Fault Refusal :=
  match s.job id with
  | none => .next s
  | some j =>
    match j.kind with
    | .coll record none => if j.request.isSome || s.jobHeld j then .next s else s.startColl j record
    | .coll record (some c) =>
      if j.request.isSome then .next s
      else if !c.read then s.readSource j record c
      else match c.pending with | some u => s.applyTile j record c u | none => .next s
    | .copy .. | .reloc .. | .msweep .. | .smap .. | .swb .. | .preq _ | .fampw _ | .task .. | .tdep .. | .reshard .. =>
      .next s

/-- The active collective of an identifier. -/
def State.collOfCid (s : State) (cid : Nat) : Option (Job × Word × Coll) :=
  s.jobs.findSome? fun j =>
    match j.kind with
    | .coll record (some c) => if c.cid = cid then some (j, record, c) else none
    | _ => none
/-- What arrives for tile `t` of member `from_`: the local tile changes, and what is ready is applied. -/
def State.receive (s : State) (cid t from_ : Nat) (f : Coll → CollTile → CollTile) :
    Host.Outcome State Fault Refusal :=
  match s.collOfCid cid with
  | none => .next s
  | some (j, record, c) =>
    match c.destOf t from_ with
    | none => .next s
    | some u =>
      if from_ = c.rank then .next s
      else
        let c := { c with tiles := c.tiles.modify u fun y => if y.fin then y else f c y }
        let j := { j with kind := .coll record (some c) }
        let s := s.putJob j
        if j.request.isSome || !c.read then .next s else s.applyTile j record c u
/-- End a collective on a digest mismatch: every counter reads 0xC0 (R268). -/
def State.mismatch (s : State) (j : Job) (record : Word) (c : Coll) : State :=
  let c := { c with
    result := 0x08, read := true, tiles := c.tiles.map fun y => { y with k := 0, fin := true, can := true } }
  ((s.putJob { j with request := none, kind := .coll record (some c) }).counterWrites c).wakePlanes
/-- The digest of OP, FMT, NM and TILES, whose function the manual does not give (R268, log entry 17). -/
def Coll.digest (c : Coll) : Nat := Config.collDigest (c.op + 4 * c.fmt + 16 * c.members + 2 ^ 20 * c.tileCount) % 2 ^ 16
/-- EXPONENT_HEADER_RECEIVE (R268, R272). -/
def execExponentHeaderReceive (cid t from_ : Nat) (e : Int) (special whole : Bool) (digest : Nat) (s : State) :
    Host.Outcome State Fault Refusal :=
  match s.collOfCid cid with
  | none => .next s
  | some (j, record, c) =>
    if digest ≠ c.digest then .next (s.mismatch j record c)
    else
      let s := if whole then s.putJob { j with kind := .coll record (some { c with whole := true }) } else s
      s.receive cid t from_ fun _ y =>
        if y.headers.any fun h => h.1 = from_ then y else { y with headers := y.headers ++ [(from_, e, special)] }
/-- PLANE_PACKET_RECEIVE (R269, R272): a packet that fails its CRC freezes its tile. -/
def execPlanePacketReceive (cid t plane from_ bits : Nat) (crcOk : Bool) (s : State) :
    Host.Outcome State Fault Refusal :=
  if crcOk then
    s.receive cid t from_ fun _ y =>
      if (y.plane from_ plane).isSome then y else { y with planes := y.planes ++ [(from_, plane, bits % 2 ^ 256)] }
  else
    match s.collOfCid cid with
    | none => .next s
    | some (j, record, c) =>
      match (c.destOf t from_).bind fun u => (c.tiles[u]?).map fun y => (u, y) with
      | none => .next s
      | some (u, y) => .next (if y.fin then s else s.setTile j record { c with drops := c.drops + 1 } u y.freeze)
/-- WHOLE_VALUE_TILE_RECEIVE (R272, R273). -/
def execWholeValueTileReceive (cid t from_ : Nat) (values : List (BitVec 32)) (s : State) :
    Host.Outcome State Fault Refusal :=
  s.receive cid t from_ fun _ y =>
    if (y.wholes.lookup from_).isSome then y else { y with wholes := y.wholes ++ [(from_, values.take 256)] }
/-- The data of a tile that a breach has reached are undefined from now on (R11, R274). Those of a COLL that has not started
are undefined from its start on; what a store to the tile itself has left there is so at once. -/
def State.spoilTile (s : State) (b : Breach) : State :=
  match s.job b.job with
  | none => s
  | some j =>
    match j.kind with
    | .coll r (some c) =>
      (match c.tiles[b.tile]? with
        | none => s
        | some y => (State.freeTile j 18 s (c.tileVa b.tile) 1024).putJob
            { j with kind := .coll r (some { c with tiles := c.tiles.set b.tile { y with spoiled := true } }) })
    | .coll _ none =>
      (match s.recordAhead j with
        | .absent | .lost => s
        | .found r =>
          (if b.here then State.freeTile j 18 s ((Coll.ofRecord j.loc r).tileVa b.tile) 1024 else s).putJob
            { j with stale := if j.stale.contains b.tile then j.stale else j.stale ++ [b.tile] })
    | .copy .. | .reloc .. | .msweep .. | .smap .. | .swb .. | .preq _ | .fampw _ | .task .. | .tdep .. | .reshard .. => s
/-- The tiles that stores have just reached against R274 (R11). -/
def State.spoilTiles (s : State) : State := s.breaches.foldl State.spoilTile { s with breaches := [] }
/-- PLANE_CANCEL_RECEIVE at a contributor (R271): the consumer takes no more of the tile. -/
def execPlaneCancelReceive (cid t consumer : Nat) (s : State) : Host.Outcome State Fault Refusal :=
  match s.collOfCid cid with
  | none => .next s
  | some (j, record, c) =>
    .next (s.putJob { j with kind := .coll record (some { c with cancels := c.cancels ++ [(t, consumer)] }) })
/-- COLL_COMPLETE: every consumer has the local contributions; the job completes once every local tile is final and OUT can be
written (R274, R384). -/
def execCollComplete (id : Nat) (s : State) : Host.Outcome State Fault Refusal :=
  match s.job id with
  | none => .next s
  | some j =>
    match j.kind with
    | .coll record (some c) =>
      if !c.read then .next s
      else
        let j := { j with kind := .coll record (some { c with told := true }) }
        let old := c.version = 0x0200
        if j.request.isSome || !c.finished then .next (s.putJob j)
        else (s.putJob j).endColl j record c.result (if old then 0 else c.drops) (b2n (c.whole && !old))
    | .coll _ none | .copy .. | .reloc .. | .msweep .. | .smap .. | .swb .. | .preq _ | .fampw _ | .task .. | .tdep ..
    | .reshard .. => .next s

end Sys2Proof.Machine
end

