-- ==== Sys2Proof/Machine/Tables.lean ====
section
/-! DEFINITION. The constant tables of the special functions (R121, R123): each entry is the named real rounded to
nearest even in binary32. -/

namespace Sys2Proof.Machine

/-- RoundNearestEven(2^(i/256), binary32) (R121): entries 0 to 63. -/
def exp2Tab0 : List Nat :=
  [0x3f800000, 0x3f8058d8, 0x3f80b1ed, 0x3f810b41, 0x3f8164d2, 0x3f81bea1, 0x3f8218af, 0x3f8272fc, 0x3f82cd87,
   0x3f832850, 0x3f838359, 0x3f83dea1, 0x3f843a29, 0x3f8495f0, 0x3f84f1f6, 0x3f854e3d, 0x3f85aac3, 0x3f86078a,
   0x3f866491, 0x3f86c1d9, 0x3f871f62, 0x3f877d2b, 0x3f87db35, 0x3f883981, 0x3f88980f, 0x3f88f6dd, 0x3f8955ee,
   0x3f89b541, 0x3f8a14d5, 0x3f8a74ad, 0x3f8ad4c6, 0x3f8b3523, 0x3f8b95c2, 0x3f8bf6a4, 0x3f8c57ca, 0x3f8cb933,
   0x3f8d1adf, 0x3f8d7cd0, 0x3f8ddf04, 0x3f8e417d, 0x3f8ea43a, 0x3f8f073b, 0x3f8f6a81, 0x3f8fce0c, 0x3f9031dc,
   0x3f9095f2, 0x3f90fa4d, 0x3f915eed, 0x3f91c3d3, 0x3f922900, 0x3f928e72, 0x3f92f42c, 0x3f935a2b, 0x3f93c072,
   0x3f9426ff, 0x3f948dd4, 0x3f94f4f0, 0x3f955c53, 0x3f95c3ff, 0x3f962bf2, 0x3f96942d, 0x3f96fcb1, 0x3f97657d,
   0x3f97ce92]
/-- RoundNearestEven(2^(i/256), binary32) (R121): entries 64 to 127. -/
def exp2Tab1 : List Nat :=
  [0x3f9837f0, 0x3f98a197, 0x3f990b88, 0x3f9975c2, 0x3f99e046, 0x3f9a4b13, 0x3f9ab62b, 0x3f9b218d, 0x3f9b8d3a,
   0x3f9bf931, 0x3f9c6573, 0x3f9cd201, 0x3f9d3eda, 0x3f9dabfe, 0x3f9e196e, 0x3f9e872a, 0x3f9ef532, 0x3f9f6387,
   0x3f9fd228, 0x3fa04116, 0x3fa0b051, 0x3fa11fd9, 0x3fa18faf, 0x3fa1ffd2, 0x3fa27043, 0x3fa2e102, 0x3fa3520f,
   0x3fa3c36b, 0x3fa43516, 0x3fa4a70f, 0x3fa51958, 0x3fa58bef, 0x3fa5fed7, 0x3fa6720e, 0x3fa6e595, 0x3fa7596c,
   0x3fa7cd94, 0x3fa8420c, 0x3fa8b6d5, 0x3fa92bef, 0x3fa9a15b, 0x3faa1718, 0x3faa8d26, 0x3fab0387, 0x3fab7a3a,
   0x3fabf13f, 0x3fac6897, 0x3face041, 0x3fad583f, 0x3fadd090, 0x3fae4934, 0x3faec22d, 0x3faf3b79, 0x3fafb519,
   0x3fb02f0e, 0x3fb0a957, 0x3fb123f6, 0x3fb19ee9, 0x3fb21a32, 0x3fb295d0, 0x3fb311c4, 0x3fb38e0e, 0x3fb40aaf,
   0x3fb487a6]
/-- RoundNearestEven(2^(i/256), binary32) (R121): entries 128 to 191. -/
def exp2Tab2 : List Nat :=
  [0x3fb504f3, 0x3fb58298, 0x3fb60094, 0x3fb67ee7, 0x3fb6fd92, 0x3fb77c95, 0x3fb7fbf0, 0x3fb87ba3, 0x3fb8fbaf,
   0x3fb97c14, 0x3fb9fcd2, 0x3fba7dea, 0x3fbaff5b, 0x3fbb8126, 0x3fbc034a, 0x3fbc85ca, 0x3fbd08a4, 0x3fbd8bd8,
   0x3fbe0f68, 0x3fbe9353, 0x3fbf179a, 0x3fbf9c3c, 0x3fc0213b, 0x3fc0a695, 0x3fc12c4d, 0x3fc1b261, 0x3fc238d2,
   0x3fc2bfa1, 0x3fc346cd, 0x3fc3ce57, 0x3fc4563f, 0x3fc4de85, 0x3fc5672a, 0x3fc5f02e, 0x3fc67991, 0x3fc70353,
   0x3fc78d75, 0x3fc817f7, 0x3fc8a2d8, 0x3fc92e1b, 0x3fc9b9be, 0x3fca45c1, 0x3fcad226, 0x3fcb5eed, 0x3fcbec15,
   0x3fcc799f, 0x3fcd078c, 0x3fcd95da, 0x3fce248c, 0x3fceb3a1, 0x3fcf4319, 0x3fcfd2f4, 0x3fd06334, 0x3fd0f3d7,
   0x3fd184df, 0x3fd2164c, 0x3fd2a81e, 0x3fd33a54, 0x3fd3ccf1, 0x3fd45ff3, 0x3fd4f35b, 0x3fd58729, 0x3fd61b5e,
   0x3fd6affa]
/-- RoundNearestEven(2^(i/256), binary32) (R121): entries 192 to 255. -/
def exp2Tab3 : List Nat :=
  [0x3fd744fd, 0x3fd7da67, 0x3fd87039, 0x3fd90673, 0x3fd99d16, 0x3fda3421, 0x3fdacb94, 0x3fdb6371, 0x3fdbfbb8,
   0x3fdc9468, 0x3fdd2d82, 0x3fddc706, 0x3fde60f5, 0x3fdefb4e, 0x3fdf9613, 0x3fe03143, 0x3fe0ccdf, 0x3fe168e7,
   0x3fe2055b, 0x3fe2a23c, 0x3fe33f89, 0x3fe3dd44, 0x3fe47b6d, 0x3fe51a03, 0x3fe5b907, 0x3fe65879, 0x3fe6f85b,
   0x3fe798ab, 0x3fe8396a, 0x3fe8da99, 0x3fe97c38, 0x3fea1e47, 0x3feac0c7, 0x3feb63b7, 0x3fec0719, 0x3fecaaec,
   0x3fed4f30, 0x3fedf3e7, 0x3fee9910, 0x3fef3eab, 0x3fefe4ba, 0x3ff08b3b, 0x3ff13231, 0x3ff1d99a, 0x3ff28177,
   0x3ff329c9, 0x3ff3d290, 0x3ff47bcc, 0x3ff5257d, 0x3ff5cfa4, 0x3ff67a41, 0x3ff72555, 0x3ff7d0df, 0x3ff87ce1,
   0x3ff9295a, 0x3ff9d64a, 0x3ffa83b3, 0x3ffb3194, 0x3ffbdfed, 0x3ffc8ec0, 0x3ffd3e0c, 0x3ffdedd2, 0x3ffe9e11,
   0x3fff4ecb]
/-- RoundNearestEven(2^(i/256), binary32) (R121). -/
def exp2Tab (i : Nat) : Nat := (exp2Tab0 ++ exp2Tab1 ++ exp2Tab2 ++ exp2Tab3).getD i 0
/-- RoundNearestEven(log2(1 + (i + 0.5)/256), binary32) (R121): entries 0 to 63. -/
def log2Tab0 : List Nat :=
  [0x3b387c20, 0x3c0a1834, 0x3c65b61d, 0x3ca07cbc, 0x3ccdf17c, 0x3cfb39a5, 0x3d142ac8, 0x3d2aa2c9, 0x3d410501,
   0x3d575199, 0x3d6d88bb, 0x3d81d548, 0x3d8cdba0, 0x3d97d77b, 0x3da2c8eb, 0x3dadb005, 0x3db88cdc, 0x3dc35f84,
   0x3dce280e, 0x3dd8e68f, 0x3de39b19, 0x3dee45be, 0x3df8e691, 0x3e01bed1, 0x3e070583, 0x3e0c4766, 0x3e118483,
   0x3e16bce3, 0x3e1bf08f, 0x3e211f8e, 0x3e2649ea, 0x3e2b6faa, 0x3e3090d6, 0x3e35ad78, 0x3e3ac596, 0x3e3fd939,
   0x3e44e868, 0x3e49f32c, 0x3e4ef98c, 0x3e53fb90, 0x3e58f93f, 0x3e5df2a0, 0x3e62e7bc, 0x3e67d899, 0x3e6cc53f,
   0x3e71adb4, 0x3e769201, 0x3e7b722b, 0x3e80271d, 0x3e82931b, 0x3e84fd12, 0x3e876505, 0x3e89caf9, 0x3e8c2ef0,
   0x3e8e90ed, 0x3e90f0f5, 0x3e934f09, 0x3e95ab2e, 0x3e980567, 0x3e9a5db6, 0x3e9cb41e, 0x3e9f08a3, 0x3ea15b49,
   0x3ea3ac10]
/-- RoundNearestEven(log2(1 + (i + 0.5)/256), binary32) (R121): entries 64 to 127. -/
def log2Tab1 : List Nat :=
  [0x3ea5fafe, 0x3ea84814, 0x3eaa9357, 0x3eacdcc7, 0x3eaf2469, 0x3eb16a3f, 0x3eb3ae4d, 0x3eb5f094, 0x3eb83118,
   0x3eba6fdc, 0x3ebcace1, 0x3ebee82b, 0x3ec121bd, 0x3ec35999, 0x3ec58fc2, 0x3ec7c43a, 0x3ec9f704, 0x3ecc2822,
   0x3ece5798, 0x3ed08567, 0x3ed2b191, 0x3ed4dc1b, 0x3ed70505, 0x3ed92c53, 0x3edb5206, 0x3edd7622, 0x3edf98a8,
   0x3ee1b99b, 0x3ee3d8fc, 0x3ee5f6d0, 0x3ee81317, 0x3eea2dd4, 0x3eec4709, 0x3eee5eb8, 0x3ef074e4, 0x3ef2898f,
   0x3ef49cbb, 0x3ef6ae6a, 0x3ef8be9f, 0x3efacd5a, 0x3efcda9f, 0x3efee670, 0x3f007867, 0x3f017cde, 0x3f02809d,
   0x3f0383a7, 0x3f0485fb, 0x3f05879b, 0x3f068888, 0x3f0788c3, 0x3f08884c, 0x3f098725, 0x3f0a854f, 0x3f0b82ca,
   0x3f0c7f98, 0x3f0d7bb9, 0x3f0e772e, 0x3f0f71f9, 0x3f106c1a, 0x3f116592, 0x3f125e62, 0x3f13568a, 0x3f144e0d,
   0x3f1544ea]
/-- RoundNearestEven(log2(1 + (i + 0.5)/256), binary32) (R121): entries 128 to 191. -/
def log2Tab2 : List Nat :=
  [0x3f163b22, 0x3f1730b7, 0x3f1825a8, 0x3f1919f8, 0x3f1a0da6, 0x3f1b00b5, 0x3f1bf323, 0x3f1ce4f3, 0x3f1dd625,
   0x3f1ec6ba, 0x3f1fb6b3, 0x3f20a610, 0x3f2194d2, 0x3f2282fa, 0x3f237089, 0x3f245d80, 0x3f2549df, 0x3f2635a7,
   0x3f2720d9, 0x3f280b76, 0x3f28f57e, 0x3f29def2, 0x3f2ac7d2, 0x3f2bb021, 0x3f2c97dd, 0x3f2d7f09, 0x3f2e65a4,
   0x3f2f4bb0, 0x3f30312c, 0x3f31161a, 0x3f31fa7b, 0x3f32de4f, 0x3f33c197, 0x3f34a453, 0x3f358684, 0x3f36682b,
   0x3f374949, 0x3f3829de, 0x3f3909ea, 0x3f39e96f, 0x3f3ac86d, 0x3f3ba6e4, 0x3f3c84d6, 0x3f3d6243, 0x3f3e3f2b,
   0x3f3f1b90, 0x3f3ff771, 0x3f40d2d0, 0x3f41adad, 0x3f428808, 0x3f4361e3, 0x3f443b3d, 0x3f451418, 0x3f45ec73,
   0x3f46c451, 0x3f479bb0, 0x3f487292, 0x3f4948f7, 0x3f4a1ee1, 0x3f4af44e, 0x3f4bc940, 0x3f4c9db8, 0x3f4d71b6,
   0x3f4e453b]
/-- RoundNearestEven(log2(1 + (i + 0.5)/256), binary32) (R121): entries 192 to 255. -/
def log2Tab3 : List Nat :=
  [0x3f4f1847, 0x3f4feada, 0x3f50bcf6, 0x3f518e9a, 0x3f525fc8, 0x3f53307f, 0x3f5400c1, 0x3f54d08d, 0x3f559fe5,
   0x3f566ec9, 0x3f573d39, 0x3f580b36, 0x3f58d8c0, 0x3f59a5d8, 0x3f5a727f, 0x3f5b3eb4, 0x3f5c0a79, 0x3f5cd5cd,
   0x3f5da0b2, 0x3f5e6b28, 0x3f5f352f, 0x3f5ffec7, 0x3f60c7f2, 0x3f6190af, 0x3f625900, 0x3f6320e4, 0x3f63e85c,
   0x3f64af69, 0x3f65760a, 0x3f663c41, 0x3f67020e, 0x3f67c771, 0x3f688c6b, 0x3f6950fc, 0x3f6a1525, 0x3f6ad8e6,
   0x3f6b9c3f, 0x3f6c5f31, 0x3f6d21bc, 0x3f6de3e1, 0x3f6ea5a0, 0x3f6f66fa, 0x3f7027ef, 0x3f70e87f, 0x3f71a8ab,
   0x3f726873, 0x3f7327d8, 0x3f73e6da, 0x3f74a579, 0x3f7563b6, 0x3f762191, 0x3f76df0b, 0x3f779c24, 0x3f7858dc,
   0x3f791534, 0x3f79d12c, 0x3f7a8cc5, 0x3f7b47fe, 0x3f7c02d9, 0x3f7cbd56, 0x3f7d7774, 0x3f7e3135, 0x3f7eea99,
   0x3f7fa39f]
/-- RoundNearestEven(log2(1 + (i + 0.5)/256), binary32) (R121). -/
def log2Tab (i : Nat) : Nat := (log2Tab0 ++ log2Tab1 ++ log2Tab2 ++ log2Tab3).getD i 0
/-- RoundNearestEven(sin(2 pi i/256), binary32) (R123): entries 0 to 63. -/
def sinTab0 : List Nat :=
  [0x0, 0x3cc90ab0, 0x3d48fb30, 0x3d96a905, 0x3dc8bd36, 0x3dfab273, 0x3e164083, 0x3e2f10a2, 0x3e47c5c2,
   0x3e605c13, 0x3e78cfcc, 0x3e888e93, 0x3e94a031, 0x3ea09ae5, 0x3eac7cd4, 0x3eb8442a, 0x3ec3ef15, 0x3ecf7bca,
   0x3edae880, 0x3ee63375, 0x3ef15aea, 0x3efc5d27, 0x3f039c3d, 0x3f08f59b, 0x3f0e39da, 0x3f13682a, 0x3f187fc0,
   0x3f1d7fd1, 0x3f226799, 0x3f273656, 0x3f2beb4a, 0x3f3085bb, 0x3f3504f3, 0x3f396842, 0x3f3daef9, 0x3f41d870,
   0x3f45e403, 0x3f49d112, 0x3f4d9f02, 0x3f514d3d, 0x3f54db31, 0x3f584853, 0x3f5b941a, 0x3f5ebe05, 0x3f61c598,
   0x3f64aa59, 0x3f676bd8, 0x3f6a09a7, 0x3f6c835e, 0x3f6ed89e, 0x3f710908, 0x3f731447, 0x3f74fa0b, 0x3f76ba07,
   0x3f7853f8, 0x3f79c79d, 0x3f7b14be, 0x3f7c3b28, 0x3f7d3aac, 0x3f7e1324, 0x3f7ec46d, 0x3f7f4e6d, 0x3f7fb10f,
   0x3f7fec43]
/-- RoundNearestEven(sin(2 pi i/256), binary32) (R123): entries 64 to 127. -/
def sinTab1 : List Nat :=
  [0x3f800000, 0x3f7fec43, 0x3f7fb10f, 0x3f7f4e6d, 0x3f7ec46d, 0x3f7e1324, 0x3f7d3aac, 0x3f7c3b28, 0x3f7b14be,
   0x3f79c79d, 0x3f7853f8, 0x3f76ba07, 0x3f74fa0b, 0x3f731447, 0x3f710908, 0x3f6ed89e, 0x3f6c835e, 0x3f6a09a7,
   0x3f676bd8, 0x3f64aa59, 0x3f61c598, 0x3f5ebe05, 0x3f5b941a, 0x3f584853, 0x3f54db31, 0x3f514d3d, 0x3f4d9f02,
   0x3f49d112, 0x3f45e403, 0x3f41d870, 0x3f3daef9, 0x3f396842, 0x3f3504f3, 0x3f3085bb, 0x3f2beb4a, 0x3f273656,
   0x3f226799, 0x3f1d7fd1, 0x3f187fc0, 0x3f13682a, 0x3f0e39da, 0x3f08f59b, 0x3f039c3d, 0x3efc5d27, 0x3ef15aea,
   0x3ee63375, 0x3edae880, 0x3ecf7bca, 0x3ec3ef15, 0x3eb8442a, 0x3eac7cd4, 0x3ea09ae5, 0x3e94a031, 0x3e888e93,
   0x3e78cfcc, 0x3e605c13, 0x3e47c5c2, 0x3e2f10a2, 0x3e164083, 0x3dfab273, 0x3dc8bd36, 0x3d96a905, 0x3d48fb30,
   0x3cc90ab0]
/-- RoundNearestEven(sin(2 pi i/256), binary32) (R123): entries 128 to 191. -/
def sinTab2 : List Nat :=
  [0x0, 0xbcc90ab0, 0xbd48fb30, 0xbd96a905, 0xbdc8bd36, 0xbdfab273, 0xbe164083, 0xbe2f10a2, 0xbe47c5c2,
   0xbe605c13, 0xbe78cfcc, 0xbe888e93, 0xbe94a031, 0xbea09ae5, 0xbeac7cd4, 0xbeb8442a, 0xbec3ef15, 0xbecf7bca,
   0xbedae880, 0xbee63375, 0xbef15aea, 0xbefc5d27, 0xbf039c3d, 0xbf08f59b, 0xbf0e39da, 0xbf13682a, 0xbf187fc0,
   0xbf1d7fd1, 0xbf226799, 0xbf273656, 0xbf2beb4a, 0xbf3085bb, 0xbf3504f3, 0xbf396842, 0xbf3daef9, 0xbf41d870,
   0xbf45e403, 0xbf49d112, 0xbf4d9f02, 0xbf514d3d, 0xbf54db31, 0xbf584853, 0xbf5b941a, 0xbf5ebe05, 0xbf61c598,
   0xbf64aa59, 0xbf676bd8, 0xbf6a09a7, 0xbf6c835e, 0xbf6ed89e, 0xbf710908, 0xbf731447, 0xbf74fa0b, 0xbf76ba07,
   0xbf7853f8, 0xbf79c79d, 0xbf7b14be, 0xbf7c3b28, 0xbf7d3aac, 0xbf7e1324, 0xbf7ec46d, 0xbf7f4e6d, 0xbf7fb10f,
   0xbf7fec43]
/-- RoundNearestEven(sin(2 pi i/256), binary32) (R123): entries 192 to 255. -/
def sinTab3 : List Nat :=
  [0xbf800000, 0xbf7fec43, 0xbf7fb10f, 0xbf7f4e6d, 0xbf7ec46d, 0xbf7e1324, 0xbf7d3aac, 0xbf7c3b28, 0xbf7b14be,
   0xbf79c79d, 0xbf7853f8, 0xbf76ba07, 0xbf74fa0b, 0xbf731447, 0xbf710908, 0xbf6ed89e, 0xbf6c835e, 0xbf6a09a7,
   0xbf676bd8, 0xbf64aa59, 0xbf61c598, 0xbf5ebe05, 0xbf5b941a, 0xbf584853, 0xbf54db31, 0xbf514d3d, 0xbf4d9f02,
   0xbf49d112, 0xbf45e403, 0xbf41d870, 0xbf3daef9, 0xbf396842, 0xbf3504f3, 0xbf3085bb, 0xbf2beb4a, 0xbf273656,
   0xbf226799, 0xbf1d7fd1, 0xbf187fc0, 0xbf13682a, 0xbf0e39da, 0xbf08f59b, 0xbf039c3d, 0xbefc5d27, 0xbef15aea,
   0xbee63375, 0xbedae880, 0xbecf7bca, 0xbec3ef15, 0xbeb8442a, 0xbeac7cd4, 0xbea09ae5, 0xbe94a031, 0xbe888e93,
   0xbe78cfcc, 0xbe605c13, 0xbe47c5c2, 0xbe2f10a2, 0xbe164083, 0xbdfab273, 0xbdc8bd36, 0xbd96a905, 0xbd48fb30,
   0xbcc90ab0]
/-- RoundNearestEven(sin(2 pi i/256), binary32) (R123). -/
def sinTab (i : Nat) : Nat := (sinTab0 ++ sinTab1 ++ sinTab2 ++ sinTab3).getD i 0
/-- RoundNearestEven(cos(2 pi i/256), binary32) (R123): entries 0 to 63. -/
def cosTab0 : List Nat :=
  [0x3f800000, 0x3f7fec43, 0x3f7fb10f, 0x3f7f4e6d, 0x3f7ec46d, 0x3f7e1324, 0x3f7d3aac, 0x3f7c3b28, 0x3f7b14be,
   0x3f79c79d, 0x3f7853f8, 0x3f76ba07, 0x3f74fa0b, 0x3f731447, 0x3f710908, 0x3f6ed89e, 0x3f6c835e, 0x3f6a09a7,
   0x3f676bd8, 0x3f64aa59, 0x3f61c598, 0x3f5ebe05, 0x3f5b941a, 0x3f584853, 0x3f54db31, 0x3f514d3d, 0x3f4d9f02,
   0x3f49d112, 0x3f45e403, 0x3f41d870, 0x3f3daef9, 0x3f396842, 0x3f3504f3, 0x3f3085bb, 0x3f2beb4a, 0x3f273656,
   0x3f226799, 0x3f1d7fd1, 0x3f187fc0, 0x3f13682a, 0x3f0e39da, 0x3f08f59b, 0x3f039c3d, 0x3efc5d27, 0x3ef15aea,
   0x3ee63375, 0x3edae880, 0x3ecf7bca, 0x3ec3ef15, 0x3eb8442a, 0x3eac7cd4, 0x3ea09ae5, 0x3e94a031, 0x3e888e93,
   0x3e78cfcc, 0x3e605c13, 0x3e47c5c2, 0x3e2f10a2, 0x3e164083, 0x3dfab273, 0x3dc8bd36, 0x3d96a905, 0x3d48fb30,
   0x3cc90ab0]
/-- RoundNearestEven(cos(2 pi i/256), binary32) (R123): entries 64 to 127. -/
def cosTab1 : List Nat :=
  [0x0, 0xbcc90ab0, 0xbd48fb30, 0xbd96a905, 0xbdc8bd36, 0xbdfab273, 0xbe164083, 0xbe2f10a2, 0xbe47c5c2,
   0xbe605c13, 0xbe78cfcc, 0xbe888e93, 0xbe94a031, 0xbea09ae5, 0xbeac7cd4, 0xbeb8442a, 0xbec3ef15, 0xbecf7bca,
   0xbedae880, 0xbee63375, 0xbef15aea, 0xbefc5d27, 0xbf039c3d, 0xbf08f59b, 0xbf0e39da, 0xbf13682a, 0xbf187fc0,
   0xbf1d7fd1, 0xbf226799, 0xbf273656, 0xbf2beb4a, 0xbf3085bb, 0xbf3504f3, 0xbf396842, 0xbf3daef9, 0xbf41d870,
   0xbf45e403, 0xbf49d112, 0xbf4d9f02, 0xbf514d3d, 0xbf54db31, 0xbf584853, 0xbf5b941a, 0xbf5ebe05, 0xbf61c598,
   0xbf64aa59, 0xbf676bd8, 0xbf6a09a7, 0xbf6c835e, 0xbf6ed89e, 0xbf710908, 0xbf731447, 0xbf74fa0b, 0xbf76ba07,
   0xbf7853f8, 0xbf79c79d, 0xbf7b14be, 0xbf7c3b28, 0xbf7d3aac, 0xbf7e1324, 0xbf7ec46d, 0xbf7f4e6d, 0xbf7fb10f,
   0xbf7fec43]
/-- RoundNearestEven(cos(2 pi i/256), binary32) (R123): entries 128 to 191. -/
def cosTab2 : List Nat :=
  [0xbf800000, 0xbf7fec43, 0xbf7fb10f, 0xbf7f4e6d, 0xbf7ec46d, 0xbf7e1324, 0xbf7d3aac, 0xbf7c3b28, 0xbf7b14be,
   0xbf79c79d, 0xbf7853f8, 0xbf76ba07, 0xbf74fa0b, 0xbf731447, 0xbf710908, 0xbf6ed89e, 0xbf6c835e, 0xbf6a09a7,
   0xbf676bd8, 0xbf64aa59, 0xbf61c598, 0xbf5ebe05, 0xbf5b941a, 0xbf584853, 0xbf54db31, 0xbf514d3d, 0xbf4d9f02,
   0xbf49d112, 0xbf45e403, 0xbf41d870, 0xbf3daef9, 0xbf396842, 0xbf3504f3, 0xbf3085bb, 0xbf2beb4a, 0xbf273656,
   0xbf226799, 0xbf1d7fd1, 0xbf187fc0, 0xbf13682a, 0xbf0e39da, 0xbf08f59b, 0xbf039c3d, 0xbefc5d27, 0xbef15aea,
   0xbee63375, 0xbedae880, 0xbecf7bca, 0xbec3ef15, 0xbeb8442a, 0xbeac7cd4, 0xbea09ae5, 0xbe94a031, 0xbe888e93,
   0xbe78cfcc, 0xbe605c13, 0xbe47c5c2, 0xbe2f10a2, 0xbe164083, 0xbdfab273, 0xbdc8bd36, 0xbd96a905, 0xbd48fb30,
   0xbcc90ab0]
/-- RoundNearestEven(cos(2 pi i/256), binary32) (R123): entries 192 to 255. -/
def cosTab3 : List Nat :=
  [0x0, 0x3cc90ab0, 0x3d48fb30, 0x3d96a905, 0x3dc8bd36, 0x3dfab273, 0x3e164083, 0x3e2f10a2, 0x3e47c5c2,
   0x3e605c13, 0x3e78cfcc, 0x3e888e93, 0x3e94a031, 0x3ea09ae5, 0x3eac7cd4, 0x3eb8442a, 0x3ec3ef15, 0x3ecf7bca,
   0x3edae880, 0x3ee63375, 0x3ef15aea, 0x3efc5d27, 0x3f039c3d, 0x3f08f59b, 0x3f0e39da, 0x3f13682a, 0x3f187fc0,
   0x3f1d7fd1, 0x3f226799, 0x3f273656, 0x3f2beb4a, 0x3f3085bb, 0x3f3504f3, 0x3f396842, 0x3f3daef9, 0x3f41d870,
   0x3f45e403, 0x3f49d112, 0x3f4d9f02, 0x3f514d3d, 0x3f54db31, 0x3f584853, 0x3f5b941a, 0x3f5ebe05, 0x3f61c598,
   0x3f64aa59, 0x3f676bd8, 0x3f6a09a7, 0x3f6c835e, 0x3f6ed89e, 0x3f710908, 0x3f731447, 0x3f74fa0b, 0x3f76ba07,
   0x3f7853f8, 0x3f79c79d, 0x3f7b14be, 0x3f7c3b28, 0x3f7d3aac, 0x3f7e1324, 0x3f7ec46d, 0x3f7f4e6d, 0x3f7fb10f,
   0x3f7fec43]
/-- RoundNearestEven(cos(2 pi i/256), binary32) (R123). -/
def cosTab (i : Nat) : Nat := (cosTab0 ++ cosTab1 ++ cosTab2 ++ cosTab3).getD i 0

end Sys2Proof.Machine
end

