-- ==== Sys2Proof/Machine/Flags.lean ====
section
/-! DEFINITION. Results that are predicates, mask bits or status words: the machine has no flag register (R105, R280);
these are the comparisons (R293, R311, R365) and the FA status word (R147). -/

namespace Sys2Proof.Machine

/-- Numeric comparisons; false with a NaN (R311). -/
def fEq (a b : Val) : Bool := (a.eq b).getD false
def fLt (a b : Val) : Bool := (a.lt b).getD false
def fLe (a b : Val) : Bool := fEq a b || fLt a b
/-- Unordered (R311). -/
def fUn (a b : Val) : Bool := a.isNan || b.isNan
/-- Not equal: true with a NaN (R365). -/
def fNe (a b : Val) : Bool := !fEq a b

/-- The value of an element of a vector format. -/
def Elem.val (e : Elem) (x : Nat) : Val :=
  match e with
  | .flt f _ => f.decode x
  | .int b => ofInt (sgn (8 * b) x) 0 false
  | .u8 => ofInt x 0 false
/-- The comparisons of VCMP on elements; integers compare as signed (R365). -/
def elemEq (e : Elem) (a b : Nat) : Bool := fEq (e.val a) (e.val b)
def elemLt (e : Elem) (a b : Nat) : Bool := fLt (e.val a) (e.val b)
def elemLe (e : Elem) (a b : Nat) : Bool := fLe (e.val a) (e.val b)

/-- A half of the array belongs to a context: its work loaded it last, on this core (R128). -/
def ownsHalf (owner : Option Nat) (c : Ctx) : Bool := owner == some c.work
/-- FASTAT's word (R147). -/
def faStatus (u : FaUnit) (c : Ctx) : Word :=
  let busy := (u.running.any fun f => f.work == c.work) || (u.queued.any fun f => f.work == c.work)
  (c.fastat &&& 0x1FFFFFFFFFFFFFFF#64) |||
    BitVec.ofNat 64 (b2n busy * 2 ^ 63 + b2n (ownsHalf u.gridOwner c) * 2 ^ 62 + b2n (ownsHalf u.statOwner c) * 2 ^ 61)

end Sys2Proof.Machine
end

