-- ==== Sys2Proof/Machine/Scalar.lean ====
section
/-! DEFINITION. Scalar integer instructions (R280, R281, R292, R293, R298, R300, R321, R324, R328, R330, R331, R335,
R338, R379). -/

namespace Sys2Proof.Machine

/-- A scalar-slot operation that writes sD after `lat` cycles and occupies its slot for `occ` (R71, R277). -/
def scalarOp (occ lat : Nat) (g : PReg) (d : SReg) (v : Word) (poison : Bool) (s : State) :
    Host.Outcome State Fault Refusal :=
  settle s (guarded g (s.occupy 0 occ) fun s => s.result 0 lat (.scalar d v poison))
/-- A scalar-slot operation that writes pD (R293, R311, R330). -/
def predOp (lat : Nat) (g : PReg) (d : PReg) (v : Bool) (s : State) : Host.Outcome State Fault Refusal :=
  settle s (guarded g (s.occupy 0 1) fun s => s.result 0 lat (.pred d v))

/-- SHL (R324). -/
def shiftLeft (a b : Word) : Word := if 64 ≤ b.toNat then 0 else a <<< b.toNat
/-- SHR (R324). -/
def shiftRight (a b : Word) : Word := if 64 ≤ b.toNat then 0 else a >>> b.toNat
/-- SHRA (R324). -/
def shiftRightA (a b : Word) : Word := a.sshiftRight (Nat.min b.toNat 63)
/-- ROT: to the right by b[5:0] (R324). -/
def rotate (a b : Word) : Word := a.rotateRight (b.toNat % 64)
/-- MULH: the high half of the signed product (R324). -/
def mulHigh (a b : Word) : Word := BitVec.ofInt 64 (a.toInt * b.toInt / 2 ^ 64)
/-- DIV (R298). -/
def divide (a b : Word) : Word := if b = 0 then BitVec.allOnes 64 else BitVec.ofInt 64 (a.toInt.tdiv b.toInt)
/-- REM (R335). -/
def remainder (a b : Word) : Word := if b = 0 then a else BitVec.ofInt 64 (a.toInt.tmod b.toInt)
/-- Zeros from bit `n - 1` downward, of `n` low bits (R292). -/
def leadingZeros (a : Nat) : Nat → Nat
  | 0 => 0
  | n + 1 => if a / 2 ^ n % 2 = 1 then 0 else 1 + leadingZeros a n
/-- Ones among the `n` low bits (R331). -/
def onesCount (a : Nat) : Nat → Nat
  | 0 => 0
  | n + 1 => onesCount a n + a / 2 ^ n % 2
/-- EXT (R300). -/
def extractField (a b : Word) : Word :=
  let pos := b.toNat % 64
  let wd := b.toNat / 256 % 64 + 1
  let f := a.toNat / 2 ^ pos % 2 ^ wd
  if b.getLsbD 16 then BitVec.ofInt 64 (sgn wd f) else BitVec.ofNat 64 f
/-- INS (R300). -/
def insertField (d a b : Word) : Word :=
  let pos := b.toNat % 64
  let wd := b.toNat / 256 % 64 + 1
  let sel : Word := BitVec.ofNat 64 ((2 ^ wd - 1) * 2 ^ pos)
  mergeBits sel d (BitVec.ofNat 64 (a.toNat % 2 ^ wd * 2 ^ pos))
/-- The function of PLOG and MLOG on one bit (R325, R330). -/
def logFn (f : LogFn) (a b : Bool) : Bool :=
  match f with
  | .and => a && b | .or => a || b | .xor => a != b | .andn => a && !b | .orn => a || !b | .nand => !(a && b)
  | .nor => !(a || b) | .xnor => a == b

/-- ADD (R280). -/
def execAdd (d a b : SReg) (g : PReg) (s : State) : Host.Outcome State Fault Refusal :=
  scalarOp 1 1 g d (s.rs a + s.rs b) (s.rp a || s.rp b) s
/-- SUB (R324). -/
def execSub (d a b : SReg) (g : PReg) (s : State) : Host.Outcome State Fault Refusal :=
  scalarOp 1 1 g d (s.rs a - s.rs b) (s.rp a || s.rp b) s
/-- AND (R280). -/
def execAnd (d a b : SReg) (g : PReg) (s : State) : Host.Outcome State Fault Refusal :=
  scalarOp 1 1 g d (s.rs a &&& s.rs b) (s.rp a || s.rp b) s
/-- OR (R324). -/
def execOr (d a b : SReg) (g : PReg) (s : State) : Host.Outcome State Fault Refusal :=
  scalarOp 1 1 g d (s.rs a ||| s.rs b) (s.rp a || s.rp b) s
/-- XOR (R379). -/
def execXor (d a b : SReg) (g : PReg) (s : State) : Host.Outcome State Fault Refusal :=
  scalarOp 1 1 g d (s.rs a ^^^ s.rs b) (s.rp a || s.rp b) s
/-- SHL (R324). -/
def execShl (d a b : SReg) (g : PReg) (s : State) : Host.Outcome State Fault Refusal :=
  scalarOp 1 1 g d (shiftLeft (s.rs a) (s.rs b)) (s.rp a || s.rp b) s
/-- SHR (R324). -/
def execShr (d a b : SReg) (g : PReg) (s : State) : Host.Outcome State Fault Refusal :=
  scalarOp 1 1 g d (shiftRight (s.rs a) (s.rs b)) (s.rp a || s.rp b) s
/-- SHRA (R324). -/
def execShra (d a b : SReg) (g : PReg) (s : State) : Host.Outcome State Fault Refusal :=
  scalarOp 1 1 g d (shiftRightA (s.rs a) (s.rs b)) (s.rp a || s.rp b) s
/-- ROT (R324). -/
def execRot (d a b : SReg) (g : PReg) (s : State) : Host.Outcome State Fault Refusal :=
  scalarOp 1 1 g d (rotate (s.rs a) (s.rs b)) (s.rp a || s.rp b) s
/-- MUL (R324). -/
def execMul (d a b : SReg) (g : PReg) (s : State) : Host.Outcome State Fault Refusal :=
  scalarOp 1 3 g d (s.rs a * s.rs b) (s.rp a || s.rp b) s
/-- MULH (R324). -/
def execMulh (d a b : SReg) (g : PReg) (s : State) : Host.Outcome State Fault Refusal :=
  scalarOp 1 3 g d (mulHigh (s.rs a) (s.rs b)) (s.rp a || s.rp b) s
/-- DIV (R298). -/
def execDiv (d a b : SReg) (g : PReg) (s : State) : Host.Outcome State Fault Refusal :=
  scalarOp 18 18 g d (divide (s.rs a) (s.rs b)) (s.rp a || s.rp b) s
/-- REM (R335). -/
def execRem (d a b : SReg) (g : PReg) (s : State) : Host.Outcome State Fault Refusal :=
  scalarOp 18 18 g d (remainder (s.rs a) (s.rs b)) (s.rp a || s.rp b) s
/-- MAX (R324). -/
def execMax (d a b : SReg) (g : PReg) (s : State) : Host.Outcome State Fault Refusal :=
  scalarOp 1 1 g d (if (s.rs b).sle (s.rs a) then s.rs a else s.rs b) (s.rp a || s.rp b) s
/-- MIN (R324). -/
def execMin (d a b : SReg) (g : PReg) (s : State) : Host.Outcome State Fault Refusal :=
  scalarOp 1 1 g d (if (s.rs a).sle (s.rs b) then s.rs a else s.rs b) (s.rp a || s.rp b) s
/-- EXT (R300). -/
def execExt (d a b : SReg) (g : PReg) (s : State) : Host.Outcome State Fault Refusal :=
  scalarOp 1 1 g d (extractField (s.rs a) (s.rs b)) (s.rp a || s.rp b) s
/-- INS (R300). -/
def execIns (d a b : SReg) (g : PReg) (s : State) : Host.Outcome State Fault Refusal :=
  scalarOp 1 1 g d (insertField (s.rs d) (s.rs a) (s.rs b)) (s.rp d || s.rp a || s.rp b) s
/-- SEL: p0 is true, so it selects sA (R338). -/
def execSel (d a b : SReg) (p : PReg) (s : State) : Host.Outcome State Fault Refusal :=
  scalarOp 1 1 0 d (if s.pr p then s.rs a else s.rs b) (if s.pr p then s.rp a else s.rp b) s
/-- CLZ (R292). -/
def execClz (d a : SReg) (g : PReg) (s : State) : Host.Outcome State Fault Refusal :=
  scalarOp 1 1 g d (BitVec.ofNat 64 (leadingZeros (s.rs a).toNat 64)) (s.rp a) s
/-- POPC (R331). -/
def execPopc (d a : SReg) (g : PReg) (s : State) : Host.Outcome State Fault Refusal :=
  scalarOp 1 1 g d (BitVec.ofNat 64 (onesCount (s.rs a).toNat 64)) (s.rp a) s
/-- PLOG (R330). -/
def execPlog (d a : PReg) (fn : LogFn) (b g : PReg) (s : State) : Host.Outcome State Fault Refusal :=
  predOp 1 g d (logFn fn (s.pr a) (s.pr b)) s
/-- NOP (R327). -/
def execNop (_g : PReg) (s : State) : Host.Outcome State Fault Refusal := settle s (s.occupy 0 1)
/-- ADDI (R281). -/
def execAddi (d a : SReg) (imm : Int) (s : State) : Host.Outcome State Fault Refusal :=
  scalarOp 1 1 0 d (s.rs a + immW imm) (s.rp a) s
/-- ANDI (R281). -/
def execAndi (d a : SReg) (imm : Int) (s : State) : Host.Outcome State Fault Refusal :=
  scalarOp 1 1 0 d (s.rs a &&& immW imm) (s.rp a) s
/-- ORI (R328). -/
def execOri (d a : SReg) (imm : Int) (s : State) : Host.Outcome State Fault Refusal :=
  scalarOp 1 1 0 d (s.rs a ||| immW imm) (s.rp a) s
/-- XORI (R379). -/
def execXori (d a : SReg) (imm : Int) (s : State) : Host.Outcome State Fault Refusal :=
  scalarOp 1 1 0 d (s.rs a ^^^ immW imm) (s.rp a) s
/-- LI (R321). -/
def execLi (d : SReg) (imm : Int) (s : State) : Host.Outcome State Fault Refusal :=
  scalarOp 1 1 0 d (immW imm) false s
/-- LIH keeps the low half and the poison bit of sD (R321). -/
def execLih (d : SReg) (imm : Int) (s : State) : Host.Outcome State Fault Refusal :=
  scalarOp 1 1 0 d ((immW imm).extractLsb' 0 32 ++ (s.rs d).extractLsb' 0 32) (s.rp d) s
/-- CMP.EQ (R293). -/
def execCmpEq (d : PReg) (a b : SReg) (g : PReg) (s : State) : Host.Outcome State Fault Refusal :=
  predOp 1 g d (s.rs a == s.rs b) s
/-- CMPI.EQ (R293). -/
def execCmpiEq (d : PReg) (a : SReg) (imm : Int) (s : State) : Host.Outcome State Fault Refusal :=
  predOp 1 0 d (s.rs a == immW imm) s
/-- CMP.NE (R293). -/
def execCmpNe (d : PReg) (a b : SReg) (g : PReg) (s : State) : Host.Outcome State Fault Refusal :=
  predOp 1 g d (s.rs a != s.rs b) s
/-- CMPI.NE (R293). -/
def execCmpiNe (d : PReg) (a : SReg) (imm : Int) (s : State) : Host.Outcome State Fault Refusal :=
  predOp 1 0 d (s.rs a != immW imm) s
/-- CMP.LT (R293). -/
def execCmpLt (d : PReg) (a b : SReg) (g : PReg) (s : State) : Host.Outcome State Fault Refusal :=
  predOp 1 g d ((s.rs a).slt (s.rs b)) s
/-- CMPI.LT (R293). -/
def execCmpiLt (d : PReg) (a : SReg) (imm : Int) (s : State) : Host.Outcome State Fault Refusal :=
  predOp 1 0 d ((s.rs a).slt (immW imm)) s
/-- CMP.LE (R293). -/
def execCmpLe (d : PReg) (a b : SReg) (g : PReg) (s : State) : Host.Outcome State Fault Refusal :=
  predOp 1 g d ((s.rs a).sle (s.rs b)) s
/-- CMPI.LE (R293). -/
def execCmpiLe (d : PReg) (a : SReg) (imm : Int) (s : State) : Host.Outcome State Fault Refusal :=
  predOp 1 0 d ((s.rs a).sle (immW imm)) s
/-- CMP.LTU (R293). -/
def execCmpLtu (d : PReg) (a b : SReg) (g : PReg) (s : State) : Host.Outcome State Fault Refusal :=
  predOp 1 g d ((s.rs a).ult (s.rs b)) s
/-- CMPI.LTU (R293). -/
def execCmpiLtu (d : PReg) (a : SReg) (imm : Int) (s : State) : Host.Outcome State Fault Refusal :=
  predOp 1 0 d ((s.rs a).ult (immW imm)) s
/-- CMP.LEU (R293). -/
def execCmpLeu (d : PReg) (a b : SReg) (g : PReg) (s : State) : Host.Outcome State Fault Refusal :=
  predOp 1 g d ((s.rs a).ule (s.rs b)) s
/-- CMPI.LEU (R293). -/
def execCmpiLeu (d : PReg) (a : SReg) (imm : Int) (s : State) : Host.Outcome State Fault Refusal :=
  predOp 1 0 d ((s.rs a).ule (immW imm)) s

end Sys2Proof.Machine
end

