-- ==== Sys2Proof/Machine/Vector.lean ====
section
/-! DEFINITION. Vector instructions (R59 to R61, R117, R118, R325, R361 to R378). -/

namespace Sys2Proof.Machine

/-! The tile of the VSHP in effect (R361, R377). -/

def State.vshp (s : State) : Word := s.me.regs.vshp
def State.tileElem (s : State) : Elem := shapeElem s.vshp
/-- Element size in bytes. -/
def State.es (s : State) : Nat := s.tileElem.bytes
/-- Elements of the tile. -/
def State.tileN (s : State) : Nat := shapeCount s.vshp
/-- Beats of a number of bytes at 2 KiB (R71). -/
def beatsOf (bytes : Nat) : Nat := (bytes + 2047) / 2048
def State.beats (s : State) : Nat := beatsOf (shapeBytes s.vshp)
/-- The elements of a register, in the size of the tile. -/
def State.elemsOf (s : State) (v : VReg) : List Nat := elems (s.rv v) s.es s.tileN
/-- The fmt check of R60. -/
def State.fmtFits (s : State) (fmt : VFmt) : Bool := (vfmtElem fmt).bytes == s.es
/-- Elements `l` of `b` bytes as a result under a mask. -/
def tileWrite (d : VReg) (b n : Nat) (m : MaskVal) (l : List Nat) : RegWrite :=
  .vec d (BitVec.ofNat 65536 (packBits (8 * b) l)) (selBytes b n m)
/-- Put a vector result in flight: its beats occupy the slot, its latency is `extra` and the beats (R71). -/
def State.vectorResult (s : State) (extra beats : Nat) (w : RegWrite) : State :=
  (s.occupy 2 beats).result 2 (extra + beats) w
/-- A form whose fmt the tile must fit (R60); otherwise sub-code 0x0B. -/
def checkedV (fmt : VFmt) (s : State) (f : State → State) : State :=
  if s.fmtFits fmt then f s else s.trapAt 2 0x01 0x0B 0
/-- A V form that gives the elements `l` to vD under its guard (R361). -/
def vecOp (extra : Nat) (fmt : VFmt) (m : MGuard) (d : VReg) (l : List Nat) (s : State) :
    Host.Outcome State Fault Refusal :=
  settle s (checkedV fmt s fun s => s.vectorResult extra s.beats (tileWrite d s.es s.tileN (s.rg m) l))

/-! Element arithmetic (R362). -/

/-- Round a value to an element format; an integer wraps (R104, R105). -/
def encodeElem (e : Elem) (v : Val) : Nat :=
  match e with
  | .flt f _ => f.rne v
  | .int b => wrap (8 * b) ((roundInt .rz v).getD 0)
  | .u8 => wrap 8 ((roundInt .rz v).getD 0)
/-- One operation on exact values, rounded or wrapped once. -/
def elem2 (fmt : VFmt) (f : Val → Val → Val) (x y : Nat) : Nat :=
  let e := vfmtElem fmt
  encodeElem e (f (e.val x) (e.val y))
def elem1 (fmt : VFmt) (f : Val → Val) (x : Nat) : Nat :=
  let e := vfmtElem fmt
  encodeElem e (f (e.val x))
def State.map2 (s : State) (a b : VReg) (f : Nat → Nat → Nat) : List Nat :=
  List.zipWith f (s.elemsOf a) (s.elemsOf b)

/-- VADD (R362). -/
def execVadd (d a b : VReg) (fmt : VFmt) (m : MGuard) (s : State) : Host.Outcome State Fault Refusal :=
  vecOp 2 fmt m d (s.map2 a b (elem2 fmt Val.add)) s
/-- VSUB (R362). -/
def execVsub (d a b : VReg) (fmt : VFmt) (m : MGuard) (s : State) : Host.Outcome State Fault Refusal :=
  vecOp 2 fmt m d (s.map2 a b (elem2 fmt fun x y => x.add y.neg)) s
/-- VMUL (R362). -/
def execVmul (d a b : VReg) (fmt : VFmt) (m : MGuard) (s : State) : Host.Outcome State Fault Refusal :=
  vecOp 2 fmt m d (s.map2 a b (elem2 fmt Val.mul)) s
/-- VFMA reads vD as the addend and rounds once (R362). -/
def execVfma (d a b : VReg) (fmt : VFmt) (m : MGuard) (s : State) : Host.Outcome State Fault Refusal :=
  let e := vfmtElem fmt
  vecOp 4 fmt m d (List.zipWith (fun (x : Nat × Nat) z =>
    encodeElem e (((e.val x.1).mul (e.val x.2)).add (e.val z)))
      ((s.elemsOf a).zip (s.elemsOf b)) (s.elemsOf d)) s
/-- VMAX (R362). -/
def execVmax (d a b : VReg) (fmt : VFmt) (m : MGuard) (s : State) : Host.Outcome State Fault Refusal :=
  vecOp 2 fmt m d (s.map2 a b (elem2 fmt Val.max)) s
/-- VMIN (R362). -/
def execVmin (d a b : VReg) (fmt : VFmt) (m : MGuard) (s : State) : Host.Outcome State Fault Refusal :=
  vecOp 2 fmt m d (s.map2 a b (elem2 fmt Val.min)) s
/-- VABS (R362). -/
def execVabs (d a : VReg) (fmt : VFmt) (m : MGuard) (s : State) : Host.Outcome State Fault Refusal :=
  vecOp 2 fmt m d ((s.elemsOf a).map (elem1 fmt Val.abs)) s
/-- VNEG (R362). -/
def execVneg (d a : VReg) (fmt : VFmt) (m : MGuard) (s : State) : Host.Outcome State Fault Refusal :=
  vecOp 2 fmt m d ((s.elemsOf a).map (elem1 fmt Val.neg)) s

/-! Bitwise forms and shifts (R363). -/

/-- VSHL: bits of an element; a count of its width or more gives 0 (R363). -/
def elemShl (es a b : Nat) : Nat := if 8 * es ≤ b then 0 else a * 2 ^ b % 2 ^ (8 * es)
/-- VSHR (R363). -/
def elemShr (es a b : Nat) : Nat := if 8 * es ≤ b then 0 else a / 2 ^ b
/-- VAND (R363). -/
def execVand (d a b : VReg) (fmt : VFmt) (m : MGuard) (s : State) : Host.Outcome State Fault Refusal :=
  vecOp 2 fmt m d (s.map2 a b fun x y => x &&& y) s
/-- VOR (R363). -/
def execVor (d a b : VReg) (fmt : VFmt) (m : MGuard) (s : State) : Host.Outcome State Fault Refusal :=
  vecOp 2 fmt m d (s.map2 a b fun x y => x ||| y) s
/-- VXOR (R363). -/
def execVxor (d a b : VReg) (fmt : VFmt) (m : MGuard) (s : State) : Host.Outcome State Fault Refusal :=
  vecOp 2 fmt m d (s.map2 a b fun x y => x ^^^ y) s
/-- VSHL (R363). -/
def execVshl (d a b : VReg) (fmt : VFmt) (m : MGuard) (s : State) : Host.Outcome State Fault Refusal :=
  vecOp 2 fmt m d (s.map2 a b (elemShl s.es)) s
/-- VSHR (R363). -/
def execVshr (d a b : VReg) (fmt : VFmt) (m : MGuard) (s : State) : Host.Outcome State Fault Refusal :=
  vecOp 2 fmt m d (s.map2 a b (elemShr s.es)) s
/-- VSEL has no guard: [2:0] names the selecting mask (R370). -/
def execVsel (d a b : VReg) (fmt : VFmt) (c : MGuard) (s : State) : Host.Outcome State Fault Refusal :=
  vecOp 2 fmt 0 d (((s.elemsOf a).zip (s.elemsOf b)).zipIdx.map fun (x, i) =>
    if (s.rg c).getLsbD i then x.1 else x.2) s
/-- VMOV (R370). -/
def execVmov (d a : VReg) (fmt : VFmt) (m : MGuard) (s : State) : Host.Outcome State Fault Refusal :=
  vecOp 2 fmt m d (s.elemsOf a) s

/-! Conversions (R367, R371). -/

/-- Convert() between element formats (R106, R107): an integer to a narrower integer wraps, or saturates under `.sat`; any
other overflow of an integer, as of u8 into i8, saturates. -/
def convertElem (src dst : Elem) (mode : Mode) (sat : Bool) (x : Nat) : Nat :=
  match dst with
  | .flt f _ => f.convert mode sat (src.val x)
  | .int b =>
    let hi : Int := 2 ^ (8 * b - 1) - 1
    let lo : Int := -(2 ^ (8 * b - 1))
    (match src with
      | .flt .. => wrap (8 * b) (convertInt mode lo hi (src.val x))
      | .int _ | .u8 =>
        let i := (roundInt .rz (src.val x)).getD 0
        wrap (8 * b) (if sat || src.bytes ≤ b then clampInt lo hi i else i))
  | .u8 => x % 256
/-- The rounding mode of element `i` of the tile, with the coordinate of R108. -/
def State.elemMode (s : State) (rm : Rounding) (i : Nat) : Mode :=
  let c := shapeCols s.vshp
  modeOf rm s.me.srkey (coordAt s.me.srorg (i / c) (i % c))
/-- VCVT (R367). -/
def execVcvt (d a : VReg) (sat : Bool) (rm : Rounding) (fmt : VFmt) (m : MGuard) (s : State) :
    Host.Outcome State Fault Refusal :=
  let n := s.tileN
  let ds := (vfmtElem fmt).bytes
  settle s (if 8192 < n * ds then s.trapAt 2 0x01 0x0B 0
    else
      let l := (s.elemsOf a).zipIdx.map fun (x, i) => convertElem s.tileElem (vfmtElem fmt) (s.elemMode rm i) sat x
      s.vectorResult 3 (beatsOf (n * Nat.max s.es ds)) (tileWrite d ds n (s.rg m) l))

/-- Bits of a packed element (R371). -/
def packWidth : PackFmt → Nat
  | .e2m1 | .o4 => 4
  | .e2m3 | .e3m2 => 6
  | .o8 => 8
/-- The value of packed element `i` of a register (R103, R113, R114). -/
def unpackVal (efr : Word) (pk : PackFmt) (v : Nat) (i : Nat) : Val :=
  let at_ (b k : Nat) : Nat := v / 2 ^ (b * k) % 2 ^ b
  let pair := if i % 2 = 0 then i + 1 else i - 1
  match pk with
  | .e2m1 => fmtE2m1.decode (at_ 4 i)
  | .e2m3 => fmtE2m3.decode (at_ 6 i)
  | .e3m2 => fmtE3m2.decode (at_ 6 i)
  | .o4 => decodeO efr false (at_ 4 i) (at_ 4 pair)
  | .o8 => decodeO efr true (at_ 8 i) (at_ 8 pair)
/-- The packed code of a value (R107, R115). -/
def packCode (efr : Word) (pk : PackFmt) (mode : Mode) (v : Val) : Nat :=
  match pk with
  | .e2m1 => fmtE2m1.convert mode true v
  | .e2m3 => fmtE2m3.convert mode true v
  | .e3m2 => fmtE3m2.convert mode true v
  | .o4 => encodeO efr false mode v
  | .o8 => encodeO efr true mode v
/-- Convert an exact value to an element without `.sat` (R371); an integer saturates (R107). -/
def convertVal (dst : Elem) (mode : Mode) (v : Val) : Nat :=
  match dst with
  | .flt f _ => f.convert mode false v
  | .int b => wrap (8 * b) (convertInt mode (-(2 ^ (8 * b - 1))) (2 ^ (8 * b - 1) - 1) v)
  | .u8 => wrap 8 (convertInt mode 0 255 v)
/-- VUNPK (R371). -/
def execVunpk (d a : VReg) (rm : Rounding) (pk : PackFmt) (fmt : VFmt) (m : MGuard) (s : State) :
    Host.Outcome State Fault Refusal :=
  vecOp 3 fmt m d ((List.range s.tileN).map fun i =>
    convertVal (vfmtElem fmt) (s.elemMode rm i) (unpackVal s.me.efr pk (s.rv a).toNat i)) s
/-- VPACK writes only the bits of guarded elements (R371). -/
def execVpack (d a : VReg) (rm : Rounding) (pk : PackFmt) (fmt : VFmt) (m : MGuard) (s : State) :
    Host.Outcome State Fault Refusal :=
  let e := vfmtElem fmt
  let w := packWidth pk
  settle s (checkedV fmt s fun s =>
    let l := (s.elemsOf a).zipIdx.map fun (x, i) => packCode s.me.efr pk (s.elemMode rm i) (e.val x)
    let sel := (List.range s.tileN).map fun i => if (s.rg m).getLsbD i then 2 ^ w - 1 else 0
    s.vectorResult 3 s.beats (.bits d (BitVec.ofNat 65536 (packBits w l)) (BitVec.ofNat 65536 (packBits w sel))))

/-! Comparisons, reductions and movement. -/

/-- A mask result (R365). -/
def State.maskResult (s : State) (d : MReg) (m : MaskVal) (l : List Bool) : State :=
  s.vectorResult 2 s.beats (.mask d (BitVec.ofNat 8192 (packBits 1 (l.map b2n))) (selMask s.tileN m))
def vecCmp (fmt : VFmt) (m : MGuard) (d : MReg) (l : List Bool) (s : State) : Host.Outcome State Fault Refusal :=
  settle s (checkedV fmt s fun s => s.maskResult d (s.rg m) l)
def State.cmp2 (s : State) (a b : VReg) (f : Nat → Nat → Bool) : List Bool :=
  List.zipWith f (s.elemsOf a) (s.elemsOf b)
/-- VCMP.EQ (R365). -/
def execVcmpEq (d : MReg) (a b : VReg) (fmt : VFmt) (m : MGuard) (s : State) : Host.Outcome State Fault Refusal :=
  vecCmp fmt m d (s.cmp2 a b (elemEq (vfmtElem fmt))) s
/-- VCMP.NE: 1 with a NaN operand (R365). -/
def execVcmpNe (d : MReg) (a b : VReg) (fmt : VFmt) (m : MGuard) (s : State) : Host.Outcome State Fault Refusal :=
  vecCmp fmt m d (s.cmp2 a b fun x y => !elemEq (vfmtElem fmt) x y) s
/-- VCMP.LT (R365). -/
def execVcmpLt (d : MReg) (a b : VReg) (fmt : VFmt) (m : MGuard) (s : State) : Host.Outcome State Fault Refusal :=
  vecCmp fmt m d (s.cmp2 a b (elemLt (vfmtElem fmt))) s
/-- VCMP.LE (R365). -/
def execVcmpLe (d : MReg) (a b : VReg) (fmt : VFmt) (m : MGuard) (s : State) : Host.Outcome State Fault Refusal :=
  vecCmp fmt m d (s.cmp2 a b (elemLe (vfmtElem fmt))) s

/-- The identity of an operator (R117). -/
def redIdentity (op : RedOp) (e : Elem) : Val :=
  match e, op with
  | .flt .., .add => .fin true 0 0
  | .flt .., .max => .inf true
  | .flt .., .min => .inf false
  | .int _, .add | .u8, .add => .fin false 0 0
  | .int b, .max => .fin true (2 ^ (8 * b - 1)) 0
  | .int b, .min => .fin false (2 ^ (8 * b - 1) - 1) 0
  | .u8, .max => .fin false 0 0
  | .u8, .min => .fin false 255 0
/-- An operand of a step of ADD. E4M3 has no infinity: one stands for the NaN of an overflow, with its sign (R107), and a
step that meets it meets a NaN. -/
def addend (e : Elem) (v : Val) : Val :=
  match e, v with
  | .flt f _, .inf _ => if f.e4m3 then .nan else v
  | _, _ => v
/-- One combining step: ADD rounds in the format, and what the last step gives is what VADD gives, the sign of the NaN of an
E4M3 overflow among it (R105, R107, R117); MAX and MIN choose a value (R362). -/
def redStep (op : RedOp) (e : Elem) (x y : Val) : Val :=
  match op with
  | .add =>
    let c := encodeElem e ((addend e x).add (addend e y))
    if (e.val c).isNan && c ≠ encodeElem e .nan then .inf true else e.val c
  | .max => x.max y
  | .min => x.min y
/-- ⌈log2 n⌉ for n ≤ 256. -/
def ceilLog (n : Nat) : Nat := ((List.range 9).find? fun k => n ≤ 2 ^ k).getD 9
/-- Pad with the identity to a power of two. -/
def padIdentity (ident : Val) (l : List Val) : List Val :=
  l ++ List.replicate (2 ^ ceilLog l.length - l.length) ident
/-- Combine neighbours. -/
def pairUp (f : Val → Val → Val) : List Val → List Val
  | x :: y :: rest => f x y :: pairUp f rest
  | l => l
/-- The tree of R117 in `fuel` levels. -/
def treeReduce (f : Val → Val → Val) : Nat → List Val → List Val
  | 0, l => l
  | k + 1, l => treeReduce f k (pairUp f l)
/-- The prefix steps of R118 from distance `d` on. -/
def scanSteps (f : Val → Val → Val) : Nat → Nat → List Val → List Val
  | 0, _, l => l
  | k + 1, d, l => scanSteps f k (2 * d) (l.take d ++ List.zipWith f l (l.drop d))
/-- The elements of one row or column as values, excluded ones as the identity (R117, R375). -/
def State.redInputs (s : State) (a : VReg) (op : RedOp) (e : Elem) (m : MaskVal) (idx : List Nat) : List Val :=
  padIdentity (redIdentity op e) (idx.map fun i =>
    if m.getLsbD i then e.val (elemAt (s.rv a).toNat s.es i) else redIdentity op e)
def State.reduced (s : State) (a : VReg) (op : RedOp) (e : Elem) (m : MaskVal) (idx : List Nat) : Nat :=
  let l := s.redInputs a op e m idx
  encodeElem e ((treeReduce (redStep op e) (ceilLog l.length) l).headD (redIdentity op e))
/-- A result that writes only the elements listed, whatever the guard (R375), of `n` elements of `b` bytes. -/
def sparseWrite (d : VReg) (b n : Nat) (l : List (Nat × Nat)) : RegWrite :=
  .vec d (BitVec.ofNat 65536 (packBits (8 * b) ((List.range n).map fun i => (l.lookup i).getD 0)))
    (some (BitVec.ofNat 8192 (packBits b ((List.range n).map fun i => if (l.lookup i).isSome then 2 ^ b - 1 else 0))))
/-- VRED: along each row, to element (r, 0) (R375). -/
def execVred (d a : VReg) (op : RedOp) (fmt : VFmt) (m : MGuard) (s : State) : Host.Outcome State Fault Refusal :=
  let c := shapeCols s.vshp
  settle s (checkedV fmt s fun s => s.vectorResult 6 s.beats (sparseWrite d s.es s.tileN
    ((List.range (shapeRows s.vshp)).map fun r =>
      (r * c, s.reduced a op (vfmtElem fmt) (s.rg m) ((List.range c).map fun k => r * c + k)))))
/-- VREDC: down each column, to element (0, c) (R375). -/
def execVredc (d a : VReg) (op : RedOp) (fmt : VFmt) (m : MGuard) (s : State) : Host.Outcome State Fault Refusal :=
  let c := shapeCols s.vshp
  settle s (checkedV fmt s fun s => s.vectorResult 6 s.beats (sparseWrite d s.es s.tileN
    ((List.range c).map fun k =>
      (k, s.reduced a op (vfmtElem fmt) (s.rg m) ((List.range (shapeRows s.vshp)).map fun r => r * c + k)))))
/-- VSCAN: prefixes along each row, every element written (R118, R375). -/
def execVscan (d a : VReg) (op : RedOp) (fmt : VFmt) (m : MGuard) (s : State) : Host.Outcome State Fault Refusal :=
  let c := shapeCols s.vshp
  let e := vfmtElem fmt
  vecOp 6 fmt 0 d ((List.range (shapeRows s.vshp)).flatMap fun r =>
    let l := s.redInputs a op e (s.rg m) ((List.range c).map fun k => r * c + k)
    ((scanSteps (redStep op e) (ceilLog l.length) 1 l).take c).map (encodeElem e)) s
/-- VTRANS: element c·R + r of the result is element (r, c) (R378). -/
def execVtrans (d a : VReg) (fmt : VFmt) (m : MGuard) (s : State) : Host.Outcome State Fault Refusal :=
  let rows := shapeRows s.vshp
  let cols := shapeCols s.vshp
  vecOp 6 fmt m d ((List.range s.tileN).map fun j => elemAt (s.rv a).toNat s.es (j % rows * cols + j / rows)) s
/-- VPERM (R372). -/
def execVperm (d a b : VReg) (fmt : VFmt) (m : MGuard) (s : State) : Host.Outcome State Fault Refusal :=
  vecOp 6 fmt m d ((s.elemsOf b).map fun j => if j < s.tileN then elemAt (s.rv a).toNat s.es j else 0) s
/-- Give successive elements of `src` to the positions that are selected. -/
def expandInto : List Bool → List Nat → List Nat
  | [], _ => []
  | true :: rest, x :: src => x :: expandInto rest src
  | true :: rest, [] => 0 :: expandInto rest []
  | false :: rest, src => 0 :: expandInto rest src
/-- Whether a guard admits each element of the tile. -/
def State.guardBits (s : State) (m : MGuard) : List Bool := (List.range s.tileN).map fun i => (s.rg m).getLsbD i
/-- VEXPD (R366). -/
def execVexpd (d a : VReg) (fmt : VFmt) (m : MGuard) (s : State) : Host.Outcome State Fault Refusal :=
  vecOp 6 fmt m d (expandInto (s.guardBits m) (s.elemsOf a)) s
/-- VCOMP writes every element and the count (R366). -/
def execVcomp (d a : VReg) (c : SReg) (m : MGuard) (s : State) : Host.Outcome State Fault Refusal :=
  let picked := ((s.elemsOf a).zip (s.guardBits m)).filterMap fun (x, b) => if b then some x else none
  settle s ((s.vectorResult 6 s.beats (tileWrite d s.es s.tileN (BitVec.allOnes 8192) picked)).result 2
    (6 + s.beats) (.scalar c (BitVec.ofNat 64 picked.length) false))

/-! FIFOs (R139, R373). -/

/-- The entries of 256 bytes that a push appends; the last is padded with zeros. -/
def pushEntries (v bytes : Nat) : List (BitVec 2048) :=
  (List.range ((bytes + 255) / 256)).map fun i => BitVec.ofNat 2048 (v % 2 ^ (8 * bytes) / 2 ^ (2048 * i))
/-- VPUSH (R373). -/
def execVpush (fifoB : Bool) (a : VReg) (fmt : VFmt) (s : State) : Host.Outcome State Fault Refusal :=
  let k := coreOf s.cur
  settle s (checkedV fmt s fun s =>
    let c := s.core k
    let es := (pushEntries (s.rv a).toNat (shapeBytes s.vshp)).map fun e =>
      ({ work := s.me.work, source := .push, data := e, poison := 0 } : FifoEntry)
    let old := if fifoB then c.fa.fifoB else c.fa.fifoA
    if 32 < old.length + es.length then s.trapAt 2 0x02 0x04 0
    else
      (s.setCore k { c with fa :=
        if fifoB then { c.fa with fifoB := old ++ es } else { c.fa with fifoA := old ++ es } }).occupy 2 s.beats)

/-! Masks, broadcasts, random bits and the shape (R325, R364, R376, R377). -/

/-- MLOG (R325). -/
def execMlog (d a b : MReg) (fn : LogFn) (m : MGuard) (s : State) : Host.Outcome State Fault Refusal :=
  settle s (s.maskResult d (s.rg m) ((List.range s.tileN).map fun i =>
    logFn fn ((s.rm a).getLsbD i) ((s.rm b).getLsbD i)))
/-- MPOP (R325). -/
def execMpop (a : MReg) (d : SReg) (m : MGuard) (s : State) : Host.Outcome State Fault Refusal :=
  settle s (s.vectorResult 2 s.beats
    (.scalar d (BitVec.ofNat 64 ((List.range s.tileN).countP fun i => (s.rg m).getLsbD i && (s.rm a).getLsbD i)) false))
/-- A V-S form that gives elements to vD (R361). -/
def vecOpS (extra : Nat) (m : MGuard) (d : VReg) (l : List Nat) (s : State) : State :=
  s.vectorResult extra s.beats (tileWrite d s.es s.tileN (s.rg m) l)
/-- VBCAST (R364). -/
def execVbcast (d : VReg) (x : SReg) (m : MGuard) (s : State) : Host.Outcome State Fault Refusal :=
  settle s (vecOpS 2 m d (List.replicate s.tileN ((s.rs x).toNat % 2 ^ (8 * s.es))) s)
/-- VIOTA (R364). -/
def execViota (d : VReg) (x : SReg) (m : MGuard) (s : State) : Host.Outcome State Fault Refusal :=
  settle s (vecOpS 2 m d ((List.range s.tileN).map fun (i : Nat) =>
    encodeElem s.tileElem (ofInt ((s.rs x).toInt + (i : Nat)) 0 false)) s)
/-- The bits that one element takes from the hash (R126, R376). -/
def rngBits (es : Nat) (key coord : Word) : Nat := rng32 key coord / 2 ^ (32 - 8 * es)
/-- VRNG.co: the origin is the register after the key's; K = 63 is sub-code 0x09 (R376). -/
def execVrngCo (d : VReg) (k : SReg) (m : MGuard) (s : State) : Host.Outcome State Fault Refusal :=
  let c := shapeCols s.vshp
  settle s (if k = 63 then s.trapAt 2 0x01 0x09 0
    else vecOpS 6 m d ((List.range s.tileN).map fun i =>
      rngBits s.es (s.rs k) (coordAt (s.rs (k + 1)) (i / c) (i % c))) s)
/-- VRNG.lc: LCNT advances once (R126, R376). -/
def execVrngLc (d : VReg) (k : SReg) (m : MGuard) (s : State) : Host.Outcome State Fault Refusal :=
  let at_ (i : Nat) : Word :=
    BitVec.ofNat 64 ((s.ctxid s.cur).toNat % 2 ^ 22 * 2 ^ 42 + s.me.lcnt.toNat * 2 ^ 14 + i)
  settle s ((vecOpS 6 m d ((List.range s.tileN).map fun i => rngBits s.es (s.rs k) (at_ i)) s).modMe
    fun c => { c with lcnt := c.lcnt + 1 })
/-- Whether a word may be written to VSHP (R377). -/
def shapeOk (x : Word) : Bool :=
  x.toNat / 2 ^ 20 = 0 && x.getLsbD 7 = false && bits x.toNat 19 16 ≤ 8 && shapeBytes x ≤ 8192
/-- VSHAPE (R377). -/
def execVshape (x : SReg) (s : State) : Host.Outcome State Fault Refusal :=
  settle s (if shapeOk (s.rs x) then s.vectorResult 2 1 (.shape (s.rs x)) else s.trapAt 2 0x0B 0x70 0)

end Sys2Proof.Machine
end

