-- ==== Sys2Proof/Machine/Special.lean ====
section
/-! DEFINITION. Special functions (R62, R119 to R124, R339). Each step is exact and rounded once to binary32. -/

namespace Sys2Proof.Machine

/-! Steps in binary32 (R119). -/

def r32 (v : Val) : Val := fmtF32.decode (fmtF32.rne v)
def bits32 (n : Nat) : Val := fmtF32.decode n
def fmul32 (a b : Val) : Val := r32 (a.mul b)
def fadd32 (a b : Val) : Val := r32 (a.add b)
def fma32 (a b c : Val) : Val := r32 ((a.mul b).add c)
/-- RNE10: 10 significant bits (R119). -/
def fmtTen : Fmt := { eb := 8, mb := 9, bias := 127, ieee := true, e4m3 := false }
def rne10 (v : Val) : Val := fmtTen.decode (fmtTen.rne v)
def oneV : Val := .fin false 1 0
def log2e : Val := bits32 0x3FB8AA3B
def negLog2e : Val := bits32 0xBFB8AA3B
def negTwoLog2e : Val := bits32 0xC038AA3B
def ln2V : Val := bits32 0x3F317218
def inv2pi : Val := bits32 0x3E22F983
def twoPi : Val := bits32 0x40C90FDB
/-- RoundNearestEven(num/den, binary32). -/
def ratio32 (num den : Nat) : Val := r32 (quotient false num den)
/-- A value times 2^k, rounded only when it leaves the normal range (R119). -/
def scaled (v : Val) (k : Int) : Val :=
  match v with
  | .fin n m e => r32 (.fin n m (e + k))
  | .nan | .inf _ => v
/-- With a sign. -/
def signed (neg : Bool) (v : Val) : Val := if neg then v.neg else v
/-- The exponent e of x = 2^e·m with m in [1, 2), and m's 23 fraction bits (R119). -/
def splitExp (m : Nat) (e : Int) : Int × Nat :=
  let l := log2 m
  ((l : Int) + e, (if l ≤ 23 then m * 2 ^ (23 - l) else m / 2 ^ (l - 23)) % 2 ^ 23)
/-- m in [1, 2) from its fraction bits. -/
def mantissa (frac : Nat) : Val := .fin false (2 ^ 23 + frac) (-23)

/-! SFRCP and SFRSQ (R120). -/

def rcpSteps (m : Val) : Nat → Val → Val
  | 0, y => y
  | k + 1, y => rcpSteps m k (fma32 y (fma32 m.neg y oneV) y)
/-- SFRCP with the special inputs of R124. -/
def sfRcp (k : Nat) (x : Val) : Val :=
  match x with
  | .nan => .nan
  | .inf n => .fin n 0 0
  | .fin n m e =>
    if m = 0 then .inf n
    else
      let p := splitExp m e
      let seed := rne10 (quotient false 512 (513 + 2 * (p.2 / 2 ^ 15)))
      signed n (scaled (rcpSteps (mantissa p.2) k seed) (-p.1))
def rsqSteps (m : Val) : Nat → Val → Val
  | 0, y => y
  | k + 1, y => rsqSteps m k (fma32 (fmul32 (.fin false 1 (-1)) y) (fma32 m.neg (fmul32 y y) oneV) y)
/-- SFRSQ with the special inputs of R124. -/
def sfRsq (k : Nat) (x : Val) : Val :=
  match x with
  | .nan => .nan
  | .inf n => if n then .nan else .fin false 0 0
  | .fin n m e =>
    if m = 0 then .inf n
    else if n then .nan
    else
      let p := splitExp m e
      let j := p.2 / 2 ^ 16
      if p.1 % 2 = 0 then scaled (rsqSteps (mantissa p.2) k (rne10 (invSqrt (257 + 2 * j) 256))) (-(p.1 / 2))
      else
        scaled (rsqSteps (.fin false (2 ^ 23 + p.2) (-22)) k (rne10 (invSqrt (2 * (257 + 2 * j)) 256)))
          (-((p.1 - 1) / 2))

/-! SFEXP and SFLOG (R121). -/

/-- q := FMA(FMUL(z, c_j), q, 1) for j down to 1. -/
def expSteps (z : Val) : Nat → Val → Val
  | 0, q => q
  | j + 1, q => expSteps z j (fma32 (fmul32 z (ratio32 1 (j + 1))) q oneV)
/-- ⌊m·2^e⌋ with the sign. -/
def floorVal (n : Bool) (m : Nat) (e : Int) : Int :=
  let i : Int := if 0 ≤ e then ((m * 2 ^ e.toNat : Nat) : Int) else m
  let i := if n then -i else i
  if 0 ≤ e then i else i.fdiv (2 ^ (-e).toNat)
/-- SFEXP with the special inputs of R124. -/
def sfExp (k : Nat) (x : Val) : Val :=
  match x with
  | .nan => .nan
  | .inf n => if n then .fin false 0 0 else .inf false
  | .fin n m e =>
    if fLe (.fin false 128 0) x then .inf false
    else if fLt x (.fin true 150 0) then .fin false 0 0
    else
      let fl := floorVal n m e
      let f := x.add (ofInt (-fl) 0 false)
      let i := (match f with | .fin _ fm fe => floorVal false fm (fe + 8) | .nan | .inf _ => 0).toNat
      let d := f.add (.fin true i (-8))
      scaled (fmul32 (bits32 (exp2Tab i)) (expSteps (fmul32 d ln2V) k oneV)) fl
/-- q := FMA(-u, q, c_j) for j down to 1. -/
def logSteps (u : Val) : Nat → Val → Val
  | 0, q => q
  | j + 1, q => logSteps u j (fma32 u.neg q (ratio32 1 (j + 1)))
/-- SFLOG with the special inputs of R124. -/
def sfLog (k : Nat) (x : Val) : Val :=
  match x with
  | .nan => .nan
  | .inf n => if n then .nan else .inf false
  | .fin n m e =>
    if m = 0 then .inf true
    else if n then .nan
    else
      let p := splitExp m e
      let ev := ofInt p.1 0 false
      if p.2 = 0 then ev
      else
        let i := p.2 / 2 ^ 15
        let u := fma32 (mantissa p.2) (ratio32 512 (513 + 2 * i)) oneV.neg
        let q := logSteps u (k + 1) (.fin false 0 0)
        fadd32 (fma32 (fmul32 u q) log2e (bits32 (log2Tab i))) ev

/-! SFSIG and SFTANH (R122). -/

def sfSig (k : Nat) (x : Val) : Val :=
  match x with
  | .nan => .nan
  | .inf n => if n then .fin false 0 0 else oneV
  | .fin .. => sfRcp k (fadd32 oneV (sfExp k (fmul32 x negLog2e)))
def sfTanh (k : Nat) (x : Val) : Val :=
  match x with
  | .nan => .nan
  | .inf n => signed n oneV
  | .fin n _ _ =>
    if fLe x.abs (.fin false 1 (-12)) then x
    else
      let b := sfExp k (fmul32 x.abs negTwoLog2e)
      signed n (fmul32 (fadd32 oneV b.neg) (sfRcp k (fadd32 oneV b)))

/-! SFSIN and SFCOS (R123). -/

/-- sp and cp after the steps j down to 1. -/
def trigSteps (w : Val) : Nat → Val × Val → Val × Val
  | 0, p => p
  | j + 1, (sp, cp) =>
    let t := 2 * (j + 1)
    trigSteps w j
      (fma32 (fmul32 w.neg (ratio32 1 (t * (t + 1)))) sp oneV, fma32 (fmul32 w.neg (ratio32 1 ((t - 1) * t))) cp oneV)
/-- An exact difference without the sign of a zero. -/
def lessInt (v : Val) (i : Int) (u : Int) : Val :=
  match v with
  | .fin n m e =>
    let lo := if e < u then e else u
    ofInt (atExp n m e lo - i * 2 ^ (u - lo).toNat) lo false
  | .nan | .inf _ => v
/-- The index i, cp and sz of R123 for a finite x. -/
def trigParts (k : Nat) (x : Val) : Nat × Val × Val :=
  let q := fmul32 x inv2pi
  let f := lessInt q ((roundInt .rne q).getD 0) 0
  let i := (roundInt .rne (f.mul (.fin false 256 0))).getD 0
  let d := lessInt f i (-8)
  let z := fmul32 d twoPi
  let p := trigSteps (fmul32 z z) k (oneV, oneV)
  ((i % 256).toNat, p.2, fmul32 z p.1)
def sfSin (k : Nat) (x : Val) : Val :=
  match x with
  | .nan | .inf _ => .nan
  | .fin _ m _ =>
    if m = 0 then x
    else
      let p := trigParts k x
      fma32 (bits32 (sinTab p.1)) p.2.1 (fmul32 (bits32 (cosTab p.1)) p.2.2)
def sfCos (k : Nat) (x : Val) : Val :=
  match x with
  | .nan | .inf _ => .nan
  | .fin _ m _ =>
    if m = 0 then oneV
    else
      let p := trigParts k x
      fma32 (bits32 (cosTab p.1)) p.2.1 (fmul32 (bits32 (sinTab p.1)) p.2.2).neg

/-! The syllables (R339). -/

def sfFmt : SfFmt → Fmt
  | .f32 => fmtF32
  | .bf16 => fmtBf16
  | .f16 => fmtF16
def sfBytes : SfFmt → Nat
  | .f32 => 4
  | .bf16 | .f16 => 2
/-- A special-function syllable (R339). -/
def specialOp (f : Nat → Val → Val) (d a : VReg) (k : Fin 8) (fmt : SfFmt) (m : MGuard) (s : State) :
    Host.Outcome State Fault Refusal :=
  settle s (if sfBytes fmt ≠ s.es then s.trapAt 5 0x01 0x0B 0
    else
      let l := (s.elemsOf a).map fun x => (sfFmt fmt).rne (f k.val ((sfFmt fmt).decode x))
      (s.occupy 5 s.beats).result 5 (6 + 4 * k.val + s.beats) (tileWrite d s.es s.tileN (s.rg m) l))

/-- SFRCP (R120). -/
def execSfrcp (d a : VReg) (k : Fin 8) (fmt : SfFmt) (m : MGuard) (s : State) : Host.Outcome State Fault Refusal :=
  specialOp sfRcp d a k fmt m s
/-- SFRSQ (R120). -/
def execSfrsq (d a : VReg) (k : Fin 8) (fmt : SfFmt) (m : MGuard) (s : State) : Host.Outcome State Fault Refusal :=
  specialOp sfRsq d a k fmt m s
/-- SFEXP (R121). -/
def execSfexp (d a : VReg) (k : Fin 8) (fmt : SfFmt) (m : MGuard) (s : State) : Host.Outcome State Fault Refusal :=
  specialOp sfExp d a k fmt m s
/-- SFLOG (R121). -/
def execSflog (d a : VReg) (k : Fin 8) (fmt : SfFmt) (m : MGuard) (s : State) : Host.Outcome State Fault Refusal :=
  specialOp sfLog d a k fmt m s
/-- SFTANH (R122). -/
def execSftanh (d a : VReg) (k : Fin 8) (fmt : SfFmt) (m : MGuard) (s : State) : Host.Outcome State Fault Refusal :=
  specialOp sfTanh d a k fmt m s
/-- SFSIG (R122). -/
def execSfsig (d a : VReg) (k : Fin 8) (fmt : SfFmt) (m : MGuard) (s : State) : Host.Outcome State Fault Refusal :=
  specialOp sfSig d a k fmt m s
/-- SFSIN (R123). -/
def execSfsin (d a : VReg) (k : Fin 8) (fmt : SfFmt) (m : MGuard) (s : State) : Host.Outcome State Fault Refusal :=
  specialOp sfSin d a k fmt m s
/-- SFCOS (R123). -/
def execSfcos (d a : VReg) (k : Fin 8) (fmt : SfFmt) (m : MGuard) (s : State) : Host.Outcome State Fault Refusal :=
  specialOp sfCos d a k fmt m s

end Sys2Proof.Machine
end

