-- ==== Sys2Proof/Machine/Fa.lean ====
section
/-! DEFINITION. The function array: parameters and formats, calls and their checks, operands (R69, R113 to R116, R127 to
R141, R301 to R309, R374, R382). -/

namespace Sys2Proof.Machine

/-! Formats (R69, R133, R135). -/

/-- Bits of an element. -/
def faBits : FaFmt → Nat
  | .dynamic | .bf16 | .f16 => 16
  | .e4m3 | .e5m2 | .o8 | .mxf8 | .mxi8 => 8
  | .e2m1 | .o4 | .mxf4 => 4
  | .mxf6 | .e2m3 | .e3m2 => 6
/-- Lanes of a cell (R133). -/
def faLanes : FaFmt → Nat
  | .dynamic | .bf16 | .f16 => 1
  | .e4m3 | .e5m2 | .o8 | .mxf8 | .mxi8 => 2
  | .e2m1 | .o4 | .mxf4 | .mxf6 | .e2m3 | .e3m2 => 4
def faIsMx : FaFmt → Bool
  | .mxf8 | .mxf6 | .mxf4 | .mxi8 => true
  | .dynamic | .bf16 | .f16 | .e4m3 | .e5m2 | .e2m1 | .o8 | .o4 | .e2m3 | .e3m2 => false
def faIsO : FaFmt → Bool
  | .o8 | .o4 => true
  | .dynamic | .bf16 | .f16 | .e4m3 | .e5m2 | .e2m1 | .e2m3 | .e3m2 | .mxf8 | .mxf6 | .mxf4 | .mxi8 => false
/-- BF16 and FP16. -/
def faWide (f : FaFmt) : Bool := f == .bf16 || f == .f16
/-- Formats of coefficients and of weights beside them (R131). -/
def faCoef (f : FaFmt) : Bool := faWide f || f == .e4m3
def faSix (f : FaFmt) : Bool := faBits f == 6
/-- Bytes of `n` elements (R382). -/
def faBytes (f : FaFmt) (n : Nat) : Nat := (n * faBits f + 7) / 8

/-! Parameters (R134). -/

def FaCall.par (c : FaCall) (i : Fin 8) : Nat := c.params[i].toNat
def FaCall.ha (c : FaCall) : Nat := bits (c.par 0) 5 0
def FaCall.hb (c : FaCall) : Nat := bits (c.par 0) 13 8
def FaCall.count (c : FaCall) : Nat := bits (c.par 1) 15 0
def FaCall.deg (c : FaCall) : Nat := bits (c.par 1) 17 16
def FaCall.entries (c : FaCall) : Nat := bits (c.par 1) 23 18 + 1
def FaCall.gmax (c : FaCall) : Nat := bits (c.par 1) 28 24 + 1
def FaCall.train (c : FaCall) : Bool := bits (c.par 1) 32 32 == 1
def FaCall.wgt (c : FaCall) : Bool := bits (c.par 1) 33 33 == 1
def FaCall.form1 (c : FaCall) : Bool := bits (c.par 1) 34 34 == 1
def FaCall.clr (c : FaCall) : Bool := bits (c.par 1) 35 35 == 1
def FaCall.mcast (c : FaCall) : Nat := bits (c.par 1) 39 36
def FaCall.kp (c : FaCall) : Nat := bits (c.par 1) 47 40 + 1
def FaCall.np (c : FaCall) : Nat := bits (c.par 1) 55 48 + 1
def FaCall.bank (c : FaCall) : Nat := bits (c.par 2) 5 0
def FaCall.off (c : FaCall) : Nat := bits (c.par 2) 31 8
def FaCall.stride (c : FaCall) : Nat := bits (c.par 2) 63 32
def FaCall.accumulate (c : FaCall) : Bool := bits (c.par 2) 64 64 == 1
def FaCall.ruleOver (c : FaCall) : Nat := bits (c.par 3) 1 0
def FaCall.lform1 (c : FaCall) : Bool := bits (c.par 3) 8 8 == 1
/-- The bits of a0 to a3 that R134 does not name are zero. -/
def FaCall.reservedOk (c : FaCall) : Bool :=
  c.params[0] &&& ~~~0x3F3F3F#128 = 0 && c.params[1] &&& ~~~0x00FFFFFF1FFFFFFF#128 = 0 &&
    c.params[2] &&& ~~~0x1FFFFFFFFFFFFFF3F#128 = 0 && c.params[3] &&& ~~~0x103#128 = 0

/-! Descriptors (R138). -/

def descKind (w : Nat) : Nat := bits w 255 252
def descFmt (w : Nat) : Nat := bits w 251 248
def descSch (w : Nat) : Nat := bits w 237 232
def descRows (w : Nat) : Nat := bits w 223 208 + 1
def descCols (w : Nat) : Nat := bits w 207 192 + 1
def descStride (w : Nat) : Nat := bits w 191 128
def descBase (w : Nat) : Nat := bits w 63 0
/-- The format of an operand and its MX variant (R111, R135, R303); none where the static format and a descriptor
disagree, a descriptor names a reserved format, or nothing names a format (R136, sub-code 0x03). WIDTH also governs an O
format that FAFMT has set (log entry 67). -/
def faFormat (c : FaCall) (w : Nat) : Option (FaFmt × Bool) :=
  let sc := faFmtCode c.fmt
  let dc := descFmt w
  if sc ≠ 0 && dc ≠ 0 && sc ≠ dc then none
  else if sc = 0 && 14 ≤ dc then none
  else
    let code := if sc ≠ 0 then sc else if dc ≠ 0 then dc else faFmtCode c.dyn
    if code = 0 then none
    else
      let f := faFmtOf code
      some (if sc = 0 && faIsO f then (if c.efr.getLsbD 1 then .o8 else .o4) else f,
        if sc = 0 && dc = 0 then c.dynSub else bits w 247 247 == 1)
/-- The operand carries block scales (R109, R111). -/
def FaCall.blockScaled (c : FaCall) (f : FaFmt) : Bool := faIsMx f || (faIsO f && c.efr.getLsbD 3)
/-- An operand of a call: which (0 HA, 1 HB, 2 the scale tile, 3 that of an FWDI's HA), its handle, bits of its elements,
rows that the routine reads and bytes that it reads from each (R382). -/
structure FaNeed where
  operand : Nat
  handle : Nat
  ebits : Nat
  rows : Nat
  bytes : Nat
  deriving DecidableEq, Repr

/-- Blocks of 32 along K (R133). -/
def faBlocks (f : FaFmt) (kp : Nat) : Nat := (faLanes f * kp + 31) / 32
/-- The scale tile of an operand, if it has one. Its elements count as bytes, whatever FMT its descriptor names (R382, log
entry 85). -/
def scaleNeed (c : FaCall) (w : Nat) (f : FaFmt) (rows kp : Nat) (rowScales : Bool) : List FaNeed :=
  if c.blockScaled f then [{ operand := 2, handle := descSch w, ebits := 8, rows := rows, bytes := faBlocks f kp }]
  else if rowScales && f = .e4m3 then [{ operand := 2, handle := descSch w, ebits := 8, rows := 1, bytes := kp }]
  else []
/-- The scale tiles of FWDI (R132, R133): the row scales of E4M3 coefficients and weights from the SCH of HB; the block scales
of weights from there too, a row for each column; those of the inputs from the SCH of HA (log entry 68). -/
def fwdiScales (c : FaCall) (a b : Nat) (f g : FaFmt) : List FaNeed :=
  let blocks (op h rows : Nat) : FaNeed :=
    { operand := op, handle := h, ebits := 8, rows := rows, bytes := (c.kp + 31) / 32 }
  (if c.blockScaled g then [blocks 2 (descSch b) c.count]
   else if g = .e4m3 then [{ operand := 2, handle := descSch b, ebits := 8, rows := 1, bytes := c.kp }] else []) ++
    (if c.blockScaled f then [blocks 3 (descSch a) 1] else [])
/-- The operands of a call by R142 and R382; none where a format is not accepted (R131, R135, R142). FWDI takes inputs and
FORM 1 weights in every format (R133, log entry 68). LDGRID reads 256 bytes of each record (R382). -/
def faNeeds (c : FaCall) (desc : Nat → Nat) : Option (List FaNeed) :=
  let need (op h : Nat) (f : FaFmt) (rows n : Nat) : FaNeed :=
    { operand := op, handle := h, ebits := faBits f, rows := rows, bytes := faBytes f n }
  let a := faFormat c (desc c.ha)
  let b := faFormat c (desc c.hb)
  match c.routine with
  | 0 =>
    match a with
    | some (f, _) =>
      if c.fmt ≠ .dynamic then none
      else some [{ operand := 0, handle := c.ha, ebits := faBits f, rows := 1, bytes := 256 }]
    | none => none
  | 1 =>
    if c.fmt ≠ .dynamic then none
    else if !c.form1 then
      a.map fun (f, _) =>
        need 0 c.ha f c.np (faLanes f * c.kp) :: scaleNeed c (desc c.ha) f c.np c.kp true
    else
      match a with
      | none => none
      | some (f, _) =>
        if !faCoef f then none
        else if !c.wgt then some (need 0 c.ha f (c.kp * c.np) c.entries :: scaleNeed c (desc c.ha) f 1 c.kp true)
        else
          match b with
          | none => none
          | some (g, _) =>
            if !faCoef g then none
            else some ([need 0 c.ha f (c.kp * c.np) c.entries, need 1 c.hb g c.np c.kp] ++
              (if f = .e4m3 || g = .e4m3 then
                [{ operand := 2, handle := descSch (desc c.ha), ebits := 8, rows := 1, bytes := c.kp }] else []))
  | 2 => a.bind fun (f, _) => if faWide f then some [need 0 c.ha f c.count c.kp] else none
  | 3 => a.map fun (f, _) =>
      need 0 c.ha f c.count (faLanes f * c.kp) :: scaleNeed c (desc c.ha) f c.count c.kp false
  | 4 =>
    match a, b with
    | some (f, _), some (g, _) =>
      if !c.form1 && !faCoef g then none
      else some ([need 0 c.ha f 1 c.kp,
          if c.form1 then need 1 c.hb g c.kp c.count
          else need 1 c.hb g (c.kp * c.gmax) (c.count * (c.deg + 1))] ++
        fwdiScales c (desc c.ha) (desc c.hb) f g)
    | _, _ => none
  | 5 | 6 =>
    match a, b with
    | some (f, _), some (g, _) =>
      if faWide f && faWide g then some [need 0 c.ha f c.count c.kp, need 1 c.hb g c.count c.np] else none
    | _, _ => none
  | 9 =>
    if c.fmt ≠ .dynamic then none
    else if c.form1 then some []
    else
      match faFormat c 0 with
      | none => none
      | some (f, _) => if c.lform1 && !faCoef f then none else some []
  | _ => if c.fmt ≠ .dynamic then none else some []
/-- The format of an operand of a checked call. -/
def FaCall.format (c : FaCall) (op : Nat) : FaFmt × Bool :=
  match c.descs.find? fun d => d.operand = op with
  | some d => (faFormat c d.word.toNat).getD (.bf16, false)
  | none => (faFormat c 0).getD (.bf16, false)
def FaCall.desc (c : FaCall) (op : Nat) : Nat :=
  match c.descs.find? fun d => d.operand = op with | some d => d.word.toNat | none => 0
/-- Rows and row bytes of the result region (R134, R142). -/
def FaCall.result (c : FaCall) : Option (Nat × Nat) :=
  match c.routine with
  | 2 | 3 => some (c.count, 4 * c.np)
  | 4 => some (1, 4 * c.count)
  | 5 => some (c.count, 4 * c.kp)
  | 7 => some (c.kp * c.np, 68)
  | 9 =>
    let f := ((faFormat c 0).getD (.bf16, false)).1
    if c.form1 then some (c.kp, 256)
    else if !c.lform1 then some (c.np, faBytes f (faLanes f * c.kp))
    else some (c.kp * c.np + (if c.wgt then c.np else 0),
      Nat.max (faBytes f c.entries) (if c.wgt then faBytes f c.kp else 0))
  | _ => none
/-- The ranges of the parameters that a routine uses (R134). -/
def FaCall.rangesOk (c : FaCall) : Bool :=
  let r := c.routine
  (r = 8 || c.kp ≤ 128) && ([0, 4, 8].contains r || c.np ≤ 128) && (!([2, 3, 4, 5, 6].contains r) || 1 ≤ c.count) &&
    !(r = 1 && c.form1 && c.train && 16 < c.entries) &&
    (match c.result with
      | none => true
      | some (_, n) => c.off % 4 = 0 && c.off < bankSize && c.stride % 4 = 0 && n ≤ c.stride)
/-- The conditions on the static format alone (R135, R142): what the descriptors name cannot mend it. -/
def FaCall.staticOk (c : FaCall) : Bool :=
  match c.routine with
  | 0 | 1 => c.fmt = .dynamic
  | 2 | 5 | 6 => c.fmt = .dynamic || faWide c.fmt
  | 4 => c.form1 || c.fmt = .dynamic || faCoef c.fmt
  | _ => true
/-- The beat formula F (R142). "+1 if E4M3" counts the format of HA (log entry 68). -/
def FaCall.beatFormula (c : FaCall) : Nat :=
  let rd := if c.deg ≤ 1 then 1 else c.deg
  let f := (c.format 0).1
  let linear (f : FaFmt) : Nat := 160 + (if faIsMx f then 16 else 0) + (if faSix f then 16 else 0)
  let spline (f : FaFmt) : Nat :=
    128 + 16 * c.entries * faBytes f 1 + (if c.wgt then 32 else 0) + (if f = .e4m3 then 1 else 0)
  match c.routine with
  | 0 => 160
  | 1 => if c.form1 then spline f else linear f
  | 2 | 5 => c.count * rd + 256
  | 3 => c.count * (if faSix f then 2 else 1) + 256
  | 4 =>
    let q := if c.form1 then 1 else ((c.deg + 1) * 128 * faBytes (c.format 1).1 1 + 511) / 512
    128 * ((c.count + 127) / 128) * q + 256
  | 6 => c.count * (c.deg + 1) + 256
  | 7 => 1216
  | 8 => 512
  | _ => if c.form1 then 160 else if c.lform1 then spline f else linear f
/-- A descriptor is valid, and describes what the routine reads (R138, R382). -/
def descOk (c : FaCall) (n : FaNeed) (w : Nat) : Bool :=
  let row := (descCols w * n.ebits + 7) / 8
  if 4 ≤ descKind w then false
  else if 2 ≤ descKind w then n.operand < 2
  else
    descBase w % 4 = 0 && descStride w % 4 = 0 && row ≤ descStride w && bits w 246 238 = 0 && bits w 231 224 = 0 &&
      bits w 127 64 = 0 && descBase w < (if descKind w = 0 then 2 ^ 57 else 2 ^ 28) &&
      (descKind w = 0 || descBase w % 2 ^ 22 + (descRows w - 1) * descStride w + row ≤ bankSize) &&
      n.rows ≤ descRows w && n.bytes ≤ row && !(c.routine = 0 && 128 < descRows w)

/-! Checks of a call (R136, R148, R301). -/

/-- Physical address of a descriptor (R138). -/
def fatabOffset (fatab : Word) (h : Nat) : Nat := bits fatab.toNat 15 0 * 64 + 32 * h
/-- How a call is judged: accepted with its descriptors, or the cause and sub-code of its trap. -/
inductive FaVerdict where
  | accepted (c : FaCall)
  | trap (cause sub : Nat)
  deriving DecidableEq, Repr

/-- Checks 1 to 5 of R301 for the acting context. The descriptors are read through the engine port of their bank in the cycle
of issue, so that a store of the same bundle to them is not seen (R138, R152; log entry 87). The reserved bits of a0 to a3
are checked for every routine (R134); the other parameters of a microprogram are its own (R305). The table itself is checked
for every call, with all its 64 descriptors, also for one that names none of them (log entry 97). Where the bank of the table
is retired there are no descriptors to judge: what rests on them is passed over (R26, R148, log entry 97). -/
def State.faCheck (s : State) (c : FaCall) : FaVerdict :=
  let tb := bits c.fatab.toNat 21 16
  let table := s.bankFault tb (fatabOffset c.fatab 0) 2048
  if 10 ≤ c.routine && (c.routine < 16 || Table.get 0 s.images c.routine = 0) then .trap 0x0A 0x01
  else if 16 ≤ c.routine then
    if !c.reservedOk then .trap 0x0A 0x03 else match table with | some n => .trap 0x03 n | none => .accepted c
  else
    let desc (h : Nat) : Nat := s.portBytes true (scratchPa s.myCluster tb (fatabOffset c.fatab h)) 32
    if c.routine < 7 && s.bankRetired tb then
      (if !c.reservedOk || !c.rangesOk || !c.staticOk then .trap 0x0A 0x03 else .trap 0x03 (table.getD 3))
    else
    match faNeeds c desc with
    | none => .trap 0x0A 0x03
    | some ns =>
      if !c.reservedOk || !c.rangesOk then .trap 0x0A 0x03
      else if ns.any fun n => !descOk c n (desc n.handle) then .trap 0x0A 0x04
      else
        let c := { c with descs := ns.map fun (n : FaNeed) => { operand := n.operand, word := BitVec.ofNat 256 (desc n.handle) } }
        let tile := ns.findSome? fun n =>
          let w := desc n.handle
          if descKind w ≠ 1 then none
          else s.bankFault (bits (descBase w) 27 22) (descBase w % 2 ^ 22)
            ((descRows w - 1) * descStride w + (descCols w * n.ebits + 7) / 8)
        let out := c.result.bind fun r => s.bankFault c.bank c.off ((r.1 - 1) * c.stride + r.2)
        match table, tile, out with
        | some n, _, _ => .trap 0x03 n
        | none, some n, _ => .trap 0x03 n
        | none, none, some n => .trap 0x03 n
        | none, none, none =>
          if c.beats ≠ (c.beatFormula + 7) / 8 * 8 then .trap 0x0A 0x02 else .accepted c
/-- The lines of the descriptors that the checks of a call read (R21, R138): those of the tiles that it names, or, where a
format is not accepted, those that name the formats. A poisoned descriptor is taken as its bits stand (log entry 69). -/
def State.descLines (s : State) (c : FaCall) : List Nat :=
  let at_ (h : Nat) : Nat := scratchPa s.myCluster (bits c.fatab.toNat 21 16) (fatabOffset c.fatab h)
  if 7 ≤ c.routine then []
  else
    let handles := match faNeeds c fun h => s.portBytes true (at_ h) 32 with
      | some ns => ns.map fun (n : FaNeed) => n.handle
      | none => if 4 ≤ c.routine then [c.ha, c.hb] else [c.ha]
    (handles.map fun h => at_ h / 64).eraseDups
/-- The call of the acting context with its snapshot (R134, R301, R303). -/
def State.faSnapshot (s : State) (beats routine : Nat) (fmt : FaFmt) : FaCall :=
  { loc := s.cur, work := s.me.work, routine := routine, fmt := fmt, dyn := s.me.faFmt, dynSub := s.me.faSub
    beats := if beats = 0 then 4096 else 8 * beats, params := s.me.aShadow, fatab := s.me.fatab, efr := s.me.efr
    descs := [], reissued := none, dead := none, root := s.me.ptroot, user := !s.me.priv, pts := s.me.pts, vec := 0, rows := []
    poison := false, streaming := false }
/-- The array of a core. -/
def State.fa (s : State) (k : Nat) : FaUnit := (s.core k).fa
def State.setFa (s : State) (k : Nat) (u : FaUnit) : State := s.setCore k { s.core k with fa := u }
/-- Queue a call (R137); the caller has made sure that the array takes it. -/
def State.faEnqueue (s : State) (k : Nat) (c : FaCall) : State :=
  let u := s.fa k
  match u.running with
  | none => s.setFa k { u with running := some c, started := false }
  | some _ => s.setFa k { u with queued := some c }
def FaUnit.full (u : FaUnit) : Bool := u.running.isSome && u.queued.isSome

/-! The forms (R301, R303, R305, R307 to R309). -/

/-- FAPAR (R307). -/
def execFapar (a b : SReg) (n : AReg) (g : PReg) (s : State) : Host.Outcome State Fault Refusal :=
  engineOp 1 g s fun s => s.modMe fun c => { c with aShadow := c.aShadow.set n (s.rs b ++ s.rs a) }
/-- FACALL (R301). -/
def execFacall (beats : Fin 512) (routine : Fin 256) (fmt : FaFmt) (s : State) : Host.Outcome State Fault Refusal :=
  settle s (
    let s := s.occupy 8 2
    let ls := s.descLines (s.faSnapshot beats.val routine.val fmt)
    match s.faCheck (s.faSnapshot beats.val routine.val fmt) with
    | .trap cause sub => (s.checking ls).trapAt 8 cause sub 0
    | .accepted c =>
      let k := coreOf s.cur
      if (s.fa k).full then (s.checking ls).trapAt 8 0x0A 0x05 0 else (s.readLines ls).faEnqueue k c)
/-- A routine of a work is running or queued on a core (R147). -/
def FaUnit.busy (u : FaUnit) (work : Nat) : Bool :=
  (u.running.any fun f => f.work == work) || (u.queued.any fun f => f.work == work)
/-- FAWAIT (R309). -/
def execFawait (g : PReg) (s : State) : Host.Outcome State Fault Refusal :=
  engineOp 1 g s fun s =>
    if s.issue.ended.contains .fa || !(s.fa (coreOf s.cur)).busy s.me.work then s else s.waitFor 8 (.fawait g) .fa
/-- FASTAT (R308): the word as it stands at its issue, which a bundle in an engine wait has kept (R381). -/
def execFastat (d : SReg) (g : PReg) (s : State) : Host.Outcome State Fault Refusal :=
  engineOp 1 g s fun s =>
    let v := s.readNow 8 (faStatus (s.fa (coreOf s.cur)) s.me)
    (s.noteRead 8 v).result 8 6 (.scalar d v false)
/-- FAFMT (R303). -/
def execFafmt (sub : Bool) (fmt : FaFmt) (g : PReg) (s : State) : Host.Outcome State Fault Refusal :=
  engineOp 1 g s fun s => s.modMe fun c => { c with faFmt := fmt, faSub := sub }
/-- FAMPW (R305). -/
def execFampw (a t : SReg) (g : PReg) (s : State) : Host.Outcome State Fault Refusal :=
  settle s (
    let s' := s.occupy 8 1
    if !s.me.priv then s'.trapAt 8 0x01 0x0A 0
    else guarded g s' fun s =>
      let va := s.rs a
      if va.toNat % 4096 ≠ 0 || 2 ^ 57 ≤ va.toNat then s.trapAt 8 0x0B 0x63 0
      else s.withBarrier t fun pa =>
        s.enterJob (.fampw va) 0
          [{ scratch := false, space := s.me.ptroot.toNat, base := va.toNat, len := 2 ^ 20, write := false }]
          (.barrier pa) 0)

/-! Elements of operands (R103, R109, R113, R114, R140). -/

/-- The bytes of a row as a number. -/
def rowNum (r : FaRow) : Nat := r.foldr (fun b acc => (b.getD 0xFF).toNat + 256 * acc) 0
/-- Element `i` of a row (R103, R113, R114). -/
def faElem (efr : Word) (f : FaFmt) (sub : Bool) (v i : Nat) : Val :=
  let w := faBits f
  let at_ (i : Nat) : Nat := v / 2 ^ (w * i) % 2 ^ w
  let x := at_ i
  match f with
  | .dynamic | .bf16 => fmtBf16.decode x
  | .f16 => fmtF16.decode x
  | .e4m3 => fmtE4m3.decode x
  | .e5m2 => fmtE5m2.decode x
  | .e2m1 | .mxf4 => fmtE2m1.decode x
  | .e2m3 => fmtE2m3.decode x
  | .e3m2 => fmtE3m2.decode x
  | .mxf8 => if sub then fmtE5m2.decode x else fmtE4m3.decode x
  | .mxf6 => if sub then fmtE3m2.decode x else fmtE2m3.decode x
  | .mxi8 => ofInt (sgn 8 x) (-6) false
  | .o8 => decodeO efr true x (at_ (i + 1 - 2 * (i % 2)))
  | .o4 => decodeO efr false x (at_ (i + 1 - 2 * (i % 2)))
/-- Some byte of element `i` is poisoned. -/
def rowBad (r : FaRow) (w i : Nat) : Bool :=
  (List.range ((w * i + w - 1) / 8 - w * i / 8 + 1)).any fun k => (r[w * i / 8 + k]?.getD (some 0)).isNone
/-- The elements of a row: a poisoned one is NaN (R140). -/
def rowVals (efr : Word) (f : FaFmt) (sub : Bool) (r : FaRow) (n : Nat) : List Val :=
  (List.range n).map fun i => if rowBad r (faBits f) i then .nan else faElem efr f sub (rowNum r) i
def rowPoisoned (r : FaRow) : Bool := r.any Option.isNone
/-- An E8M0 scale (R109); a poisoned one is NaN. -/
def scaleVal (b : Option Byte) : Val :=
  match b with
  | none => .nan
  | some x => if x = 0xFF then .nan else .fin false 1 ((x.toNat : Int) - 127)
/-- The stored code of a coefficient; a poisoned one is the canonical NaN. -/
def rowCodes (f : FaFmt) (r : FaRow) (n : Nat) : List (BitVec 16) :=
  let nan := match f with | .f16 => fmtF16.nan | .e4m3 => fmtE4m3.nan | _ => fmtBf16.nan
  let w := faBits f
  (List.range n).map fun i =>
    BitVec.ofNat 16 (if rowBad r w i then nan else rowNum r / 2 ^ (w * i) % 2 ^ w)

/-! Reading operands (R139 to R141, R382). -/

/-- What a read gives: the row; the row in the FIFO, from which it is taken next; a status that ends the routine, with the
state after what has been read (R21); nothing yet; an address with no memory. -/
inductive FaGot where
  | row (s : State) (c : FaCall) (r : FaRow)
  | fetched (s : State) (c : FaCall)
  | status (s : State) (n : Nat)
  | wait
  | hole

/-- Bytes of a number. -/
def bytesOf : Nat → Nat → List Byte
  | 0, _ => []
  | n + 1, v => BitVec.ofNat 8 v :: bytesOf n (v / 256)
/-- Read `n` bytes line by line from a scratchpad bank, or from global memory. A retired bank ends the routine with 0x06, by
either way to it (R26, R147). -/
def State.faFetch (k kind root : Nat) (user : Bool) : Nat → State → Word → Nat → Nat → FaRow →
    (State × Word × FaRow) ⊕ (State × Option Nat)
  | 0, s, pts, _, _, acc => .inl (s, pts, acc)
  | fuel + 1, s, pts, a, n, acc =>
    if n = 0 then .inl (s, pts, acc)
    else
      let m := Nat.min n (64 - a % 64)
      let row (v : Nat) (poison : Bool) : FaRow := (bytesOf m v).map fun b => if poison then none else some b
      if kind = 1 then
        let bank := bits a 27 22
        if s.retired.contains (64 * (k / 4) + bank) then .inr (s, some 0x06)
        else
          let r := s.bankRead (k / 4) bank (a % 2 ^ 22) m true
          State.faFetch k kind root user fuel r.1 pts (a + m) (n - m) (acc ++ row r.2.1 r.2.2)
      else
        match State.engineRead (BitVec.ofNat 64 root) user 2 s pts (BitVec.ofNat 64 a) m with
        | .inl (s, pts, v, poison) => State.faFetch k kind root user fuel s pts (a + m) (n - m) (acc ++ row v poison)
        | .inr (t, .absent _) => .inr (t, some 0x05)
        | .inr (t, .status n) => .inr (t, some (if n = 1 then 0x06 else 0x08))
        | .inr (t, .hole) => .inr (t, none)
/-- Entries that a row takes in a FIFO (R139, R382): one for each 256 bytes of a longer one (log entry 86). -/
def entriesOf (c : FaCall) (op n : Nat) : Nat :=
  if c.routine ≠ 0 && faSix (c.format op).1 then 2 else Nat.max 1 ((n + 255) / 256)
def FaUnit.fifo (u : FaUnit) (op : Nat) : List FifoEntry := if op = 1 then u.fifoB else u.fifoA
def FaUnit.setFifo (u : FaUnit) (op : Nat) (l : List FifoEntry) : FaUnit :=
  if op = 1 then { u with fifoB := l } else { u with fifoA := l }
/-- The entries of a FIFO from one source, in their order: those that the fetcher or a lead has put there for the running
routine, or those pushed, which wait for the next routine that streams the FIFO by KIND 2 (R139, R373, log entry 110). -/
def FaUnit.entries (u : FaUnit) (op : Nat) (src : FifoSource) : List FifoEntry := (u.fifo op).filter fun e => e.source == src
/-- Take the first `m` of them from the FIFO. -/
def FaUnit.takeEntries (u : FaUnit) (op : Nat) (src : FifoSource) (m : Nat) : FaUnit :=
  u.setFifo op ((u.fifo op).filter (fun e => e.source != src) ++ (u.entries op src).drop m)
/-- A routine ends early: what the operand fetcher or a lead has put into the FIFOs for it goes (log entry 110). -/
def FaUnit.dropStreams (u : FaUnit) : FaUnit := (u.setFifo 0 (u.entries 0 .push)).setFifo 1 (u.entries 1 .push)
/-- Cores of the cluster that receive the stream of an operand (R141). -/
def State.receivers (s : State) (k : Nat) (c : FaCall) (op : Nat) : List Nat :=
  if !([2, 3, 4, 5, 6].contains c.routine) || 2 ≤ op then []
  else
    ((List.range 4).map (4 * (k / 4) + ·)).filter fun i =>
      i ≠ k && c.mcast / 2 ^ (i % 4) % 2 = 1 && (s.fa i).running.any fun f => descKind (f.desc op) = 3
/-- Entry `e` of a row, with the poison of its bytes (R140). -/
def rowEntry (work : Nat) (src : FifoSource) (r : FaRow) (e : Nat) : FifoEntry :=
  let part := (r.drop (256 * e)).take 256
  { work := work
    source := src
    data := BitVec.ofNat 2048 (rowNum part)
    poison := BitVec.ofNat 256 (part.foldr (fun b acc => b2n b.isNone + 2 * acc) 0) }
/-- The bytes of an entry; none where poisoned. -/
def FifoEntry.bytes (e : FifoEntry) : FaRow :=
  (bytesOf 256 e.data.toNat).zipIdx.map fun (b, i) => if e.poison.getLsbD i then none else some b
/-- Send a row to the receivers, poison with it (R140, R141). -/
def State.faSend (s : State) (l : List Nat) (op : Nat) (r : FaRow) (m : Nat) : State :=
  l.foldl (fun (s : State) i =>
    let u := s.fa i
    let tag := match u.running with | some f => f.work | none => 0
    s.setFa i (u.setFifo op (u.fifo op ++ (List.range m).map (rowEntry tag .lead r)))) s
/-- An operand flows through FIFO A or B from its tile, fetched ahead of use (R139). -/
def FaCall.fetches (c : FaCall) (op : Nat) : Bool := op < 2 && descKind (c.desc op) < 2
/-- The source of the entries that an operand flows from (R139, R373). -/
def FaCall.source (c : FaCall) (op : Nat) : FifoSource :=
  if c.fetches op then .fetcher else if descKind (c.desc op) = 2 then .push else .lead
/-- The FIFO of an operand, and each FIFO to which its stream goes, has room for `m` entries (R139, R141). -/
def State.faRoom (s : State) (k : Nat) (recv : List Nat) (op m : Nat) : Bool :=
  (k :: recv).all fun i => ((s.fa i).fifo op).length + m ≤ 32
/-- Read `n` bytes at byte `o` of row `row` of an operand's tile: a row that flows through a FIFO goes into it, and to the
receivers of its stream (R139, R141, R382, log entry 110). -/
def State.faLoad (s : State) (k : Nat) (c : FaCall) (op row o n : Nat) : FaGot :=
  let w := c.desc op
  let m := entriesOf c op n
  let recv := s.receivers k c op
  if c.fetches op && !s.faRoom k recv op m then .wait
  else
    match State.faFetch k (descKind w) c.root.toNat c.user (n / 64 + 2) s c.pts (descBase w + row * descStride w + o) n []
        with
    | .inl (t, pts, r) =>
      if c.fetches op then
        let u := t.fa k
        let es := (List.range m).map (rowEntry c.work .fetcher r)
        .fetched ((t.setFa k (u.setFifo op (u.fifo op ++ es))).faSend recv op r m) { c with pts := pts }
      else .row t { c with pts := pts } r
    | .inr (t, some st) => .status t st
    | .inr (_, none) => .hole
/-- Take `n` bytes at byte `o` of row `row` of an operand (R139, R382). A FIFO that runs short holds the array; a work
that is being pre-empted ends with status 0x07 (R374). -/
def State.faRead (s : State) (k : Nat) (c : FaCall) (op row o n : Nat) : FaGot :=
  let m := entriesOf c op n
  let u := s.fa k
  let q := u.entries op (c.source op)
  if 2 ≤ op then s.faLoad k c op row o n
  else if q.length < m then
    if c.fetches op then s.faLoad k c op row o n
    else if descKind (c.desc op) = 2 && s.places.any (fun l => (s.ctx l).work = c.work && (s.ctx l).stopping.isSome)
    then .status s 0x07
    else .wait
  else
    let r : FaRow := ((q.take m).flatMap FifoEntry.bytes).take n
    let t := s.setFa k (u.takeEntries op (c.source op) m)
    let recv := if c.fetches op then [] else s.receivers k c op
    if recv.any fun i => 32 < ((s.fa i).fifo op).length + m then .wait else .row (t.faSend recv op r m) c r

end Sys2Proof.Machine
end

