-- ==== Sys2Proof/Machine/FaRun.lean ====
section
/-! DEFINITION. The routines of the function array and its events (R128 to R133, R137, R141 to R147, R374). A routine
proceeds by reads of one row and by vectors, and completes no earlier than its declared beats (log entry 12). -/

namespace Sys2Proof.Machine

/-! Row heads (R129, R130). -/

/-- Where an input lies: NaN, a row without grid, outside under ZERO, or an interval with t, inside the grid or not. -/
inductive Found where
  | nan
  | absent
  | zero
  | at (g : Nat) (t : Val) (inside : Bool)

def RowHead.knot (h : RowHead) (g : Nat) : Val := fmtF32.decode (h.knots[g]?.getD 0).toNat
def RowHead.width (h : RowHead) (g : Nat) : Val := fmtF32.decode (h.widths[g]?.getD 0).toNat
def RowHead.none : RowHead := { g := 0, knots := [], widths := [], rule := 0 }
/-- t in interval `g`. -/
def RowHead.coord (h : RowHead) (g : Nat) (x : Val) : Val := fmul32 (fadd32 x (h.knot g).neg) (h.width g)
/-- The interval search (R130). -/
def RowHead.search (h : RowHead) (x : Val) : Found :=
  if x.isNan then .nan
  else if h.g = 0 then .absent
  else
    let below := fLt x (h.knot 0)
    if !below && fLt x (h.knot h.g) then
      let g := ((List.range h.g).filter fun i => fLe (h.knot i) x).getLast?.getD 0
      .at g (h.coord g x) true
    else
      let g := if below then 0 else h.g - 1
      match h.rule with
      | 0 => .at g (if below then .fin false 0 0 else oneV) false
      | 1 => .at g (h.coord g x) false
      | _ => .zero
/-- RoundNearestEven(1/(b − a), binary32), the difference exact; none unless b > a and the width is finite (R129). -/
def knotWidth (a b : Val) : Option (BitVec 32) :=
  match b.add a.neg with
  | .fin false m e =>
    if m = 0 then none
    else
      let v := if e < 0 then quotient false (2 ^ (-e).toNat) m else quotient false 1 (m * 2 ^ e.toNat)
      let w := fmtF32.rne v
      (match fmtF32.decode w with
        | .fin .. => some (BitVec.ofNat 32 w)
        | .nan | .inf _ => none)
  | .fin true .. | .nan | .inf _ => none
/-- Widths of a list of knots. -/
def knotWidths : List (BitVec 32) → Option (List (BitVec 32))
  | a :: b :: rest =>
    match knotWidth (fmtF32.decode a.toNat) (fmtF32.decode b.toNat), knotWidths (b :: rest) with
    | some w, some ws => some (w :: ws)
    | _, _ => none
  | _ => some []
def isFinite (v : Val) : Bool :=
  match v with
  | .fin .. => true
  | .nan | .inf _ => false
/-- A row head from a grid record; none where the record is invalid (R129). A poisoned byte G or RULE makes it invalid: it
reads as 0xFF (R140, log entry 84). -/
def gridRow (ruleSel : Nat) (r : FaRow) : Option RowHead :=
  let byte (i : Nat) : Nat := ((r[i]?.getD (some 0)).getD 0xFF).toNat
  let g := byte 133
  if 32 < g || (ruleSel = 0 && 2 < byte 134) then none
  else
    let knots := (List.range (g + 1)).map fun i =>
      if (List.range 4).any fun j => (r[4 * i + j]?.getD (some 0)).isNone then 0x7FC00000#32
      else BitVec.ofNat 32 (rowNum r / 2 ^ (32 * i) % 2 ^ 32)
    if !knots.all fun k => isFinite (fmtF32.decode k.toNat) then none
    else (knotWidths knots).map fun ws =>
      { g := g, knots := knots, widths := ws, rule := if ruleSel = 0 then byte 134 else ruleSel - 1 }

/-! Cells (R116, R131, R133). -/

/-- A coefficient by its code, under the row scale (R131, R132). -/
def coefVal (f : FaFmt) (code : Nat) (scale : Option Byte) : Val :=
  match f with
  | .f16 => fmtF16.decode code
  | .e4m3 => (fmtE4m3.decode code).mul (scaleVal scale)
  | _ => fmtBf16.decode code
def FaUnit.rowScale (u : FaUnit) (i : Nat) : Option Byte := some (u.rowScales[i]?.getD 127)
def FaUnit.coef (u : FaUnit) (y : StatInfo) (i : Nat) (c : FaCell) (n : Nat) : Val :=
  coefVal y.fmt (c.coef[n]?.getD 0).toNat (u.rowScale i)
/-- The weight of lane `l`: +0 where the cell holds none (R142). -/
def FaUnit.weight (u : FaUnit) (y : StatInfo) (i : Nat) (c : FaCell) (l : Nat) : Val :=
  let v := fmtF32.decode (c.weights[l]?.getD 0).toNat
  if y.rowScaled then v.mul (scaleVal (u.rowScale i)) else v
/-- Horner's rule (R131) on the coefficients `c 0` to `c d`. -/
def horner (c : Nat → Val) (t : Val) : Nat → Val → Val
  | 0, s => s
  | e + 1, s => horner c t e (fma32 s t (c e))
def splineTerm (c : Nat → Val) (d : Nat) (t : Val) : Val := horner c t d (c d)
/-- One exact sum, rounded once (R116). -/
def cellSum (p : Val) (l : List Val) : Val := fmtF32.decode (sumRne (p :: l))
def FaUnit.cell (u : FaUnit) (i j : Nat) : Option FaCell := u.cells.lookup (128 * i + j)
def plusZero : Val := .fin false 0 0
/-- One column of FWDS (R131). -/
def fwdsColumn (u : FaUnit) (y : StatInfo) (d : Nat) (xs : List Val) (fs : List Found) (j : Nat) : Val :=
  ((xs.zip fs).zipIdx).foldl (fun p ((x, f), i) =>
    match u.cell i j with
    | none => p
    | some c =>
      let prod := if y.wgt then [(u.weight y i c 0).mul x] else []
      match f with
      | .nan => .nan
      | .absent => cellSum p prod
      | .zero => cellSum p (prod ++ [plusZero])
      | .at g t _ => cellSum p (prod ++ [splineTerm (fun e => u.coef y i c ((d + 1) * g + e)) d t])) plusZero
/-- One column of FWDL (R133): `xs` the scaled elements of the vector. -/
def fwdlColumn (u : FaUnit) (y : StatInfo) (kp : Nat) (xs : List Val) (j : Nat) : Val :=
  (List.range kp).foldl (fun p i =>
    match u.cell i j with
    | none => p
    | some c =>
      let scale := match c.scales with | [] => oneV | b :: _ => scaleVal (some b)
      cellSum p ((List.range y.lanes).map fun l =>
        ((u.weight y i c l).mul scale).mul (xs[y.lanes * i + l]?.getD plusZero))) plusZero
/-- φ′ of a cell (R144). -/
def slopeOf (u : FaUnit) (y : StatInfo) (h : RowHead) (i : Nat) (c : FaCell) (f : Found) : Val :=
  let a := if y.wgt then u.weight y i c 0 else plusZero
  if y.d = 0 || h.g = 0 then a
  else match f with
  | .nan => .nan
  | .absent | .zero => a
  | .at g t inside =>
    if h.rule = 0 && !inside then a
    else
      let co (e : Nat) : Val := ofInt e 0 false |>.mul (u.coef y i c ((y.d + 1) * g + e))
      -- e runs from D − 1 down to 1.
      let q := horner (fun e => co (e + 1)) t (y.d - 1) (co y.d)
      fma32 q (h.width g) a
/-- The input gradient of row `i` (R144). -/
def bwdxRow (u : FaUnit) (y : StatInfo) (np : Nat) (grads : List Val) (f : Found) (i : Nat) : Val :=
  ((List.range np).reverse).foldl (fun p j =>
    match u.cell i j with
    | none => p
    | some c => fma32 (grads[j]?.getD plusZero) (slopeOf u y (u.heads[i]?.getD RowHead.none) i c f) p) plusZero
def f32Code (v : Val) : BitVec 32 := BitVec.ofNat 32 (fmtF32.rne v)
/-- The accumulators of a cell after one vector (R145). -/
def accumulate (d : Nat) (x grad : Val) (f : Found) (c : FaCell) : FaCell :=
  let add (a : BitVec 32) (v : Val) : BitVec 32 := f32Code ((grad.mul v).add (fmtF32.decode a.toNat))
  let c := { c with accA := add c.accA x }
  match f with
  | .nan | .absent | .zero => c
  | .at g t _ =>
    ((List.range (d + 1)).foldl (fun (cu : FaCell × Val) e =>
      let n := (d + 1) * g + e
      ({ cu.1 with acc := cu.1.acc.set n (add (cu.1.acc[n]?.getD 0) cu.2) }, fmul32 cu.2 t)) (c, oneV)).1
/-- Encode an element in a format (R103, R107, R109, R115), for UNLD (log entry 19). -/
def faEncode (efr : Word) (f : FaFmt) (sub : Bool) (v : Val) : Nat :=
  match f with
  | .dynamic | .bf16 => fmtBf16.rne v
  | .f16 => fmtF16.rne v
  | .e4m3 => fmtE4m3.rne v
  | .e5m2 => fmtE5m2.rne v
  | .e2m1 | .mxf4 => fmtE2m1.rne v
  | .e2m3 => fmtE2m3.rne v
  | .e3m2 => fmtE3m2.rne v
  | .mxf8 => if sub then fmtE5m2.rne v else fmtE4m3.rne v
  | .mxf6 => if sub then fmtE3m2.rne v else fmtE2m3.rne v
  | .mxi8 => wrap 8 (convertInt .rne (-128) 127 (v.mul (.fin false 64 0)))
  | .o8 => encodeO efr true .rne v
  | .o4 => encodeO efr false .rne v

/-! GREF (R146). -/

/-- The binomial coefficient, for degrees up to 3. -/
def choose2 : Nat → Nat → Nat
  | _, 0 => 1
  | 0, _ + 1 => 0
  | n + 1, k + 1 => choose2 n k + choose2 n (k + 1)
/-- v to the power n, exactly. -/
def powVal (v : Val) : Nat → Val
  | 0 => oneV
  | n + 1 => v.mul (powVal v n)
/-- Coefficient `e` of the left half p(τu), and of the right half p(τ + (1 − τ)u). One that is exactly zero keeps the sign
of the product in the left half; in the right one its terms are summed from +0 (log entry 101). -/
def leftCoef (c : Nat → Val) (tau : Val) (e : Nat) : Val := (c e).mul (powVal tau e)
def rightCoef (c : Nat → Val) (tau : Val) (d e : Nat) : Val :=
  (List.range (d + 1)).foldl (fun s n =>
    if n < e then s
    else s.add ((((c n).mul (ofInt (choose2 n e) 0 false)).mul (powVal tau (n - e))).mul
      (powVal (oneV.add tau.neg) e))) plusZero
/-- The middle knot and τ of interval `g`. -/
def RowHead.middle (h : RowHead) (g : Nat) : BitVec 32 × Val :=
  let m := f32Code ((fadd32 (h.knot g) (h.knot (g + 1))).mul (.fin false 1 (-1)))
  (m, fmul32 (fadd32 (fmtF32.decode m.toNat) (h.knot g).neg) (h.width g))
/-- A row head with its intervals halved; none where a new width is not finite. -/
def RowHead.halve (h : RowHead) : Option RowHead :=
  if h.g = 0 then some h
  else
    let ks := ((List.range h.g).flatMap fun g => [h.knots[g]?.getD 0, (h.middle g).1]) ++ [h.knots[h.g]?.getD 0]
    (knotWidths ks).map fun ws => { h with g := 2 * h.g, knots := ks, widths := ws }
/-- The code of a new coefficient; none where it overflows. -/
def newCode (f : FaFmt) (v : Val) : Option (BitVec 16) :=
  let code := faEncode 0 f false v
  if isFinite (coefVal f code (some 127)) then some (BitVec.ofNat 16 code) else none
/-- A cell after halving (R146): the entries of the refined intervals, behind them the old ones, which it does not name
(R10), then free values in the entries that it adds; `free` is their counter. -/
def halveCell (y : StatInfo) (h : RowHead) (free : Nat) (c : FaCell) : Option FaCell :=
  let co (g n : Nat) : Val := coefVal y.fmt (c.coef[(y.d + 1) * g + n]?.getD 0).toNat (some 127)
  let es := (List.range h.g).flatMap fun g =>
    let tau := (h.middle g).2
    ((List.range (y.d + 1)).map fun e => newCode y.fmt (leftCoef (co g) tau e)) ++
      (List.range (y.d + 1)).map fun e => newCode y.fmt (rightCoef (co g) tau y.d e)
  if es.any Option.isNone then none
  else
    let l := es.filterMap id
    let rest := (List.range (2 * y.entries - l.length)).map fun i =>
      if l.length + i < y.entries then c.coef[l.length + i]?.getD 0
      else
        BitVec.ofNat 16 ((Config.freeByte (free + 2 * i)).toNat + 256 * (Config.freeByte (free + 2 * i + 1)).toNat)
    some { c with coef := l ++ rest, acc := if y.train then List.replicate 16 0 else [], accA := 0 }
/-- Cells halved, each with free values of its own. -/
def halveCells (u : FaUnit) (y : StatInfo) : Table FaCell → Nat → Option (Table FaCell × Nat)
  | [], n => some ([], n)
  | (k, c) :: rest, n =>
    match halveCell y (u.heads[k / 128]?.getD RowHead.none) n c, halveCells u y rest (n + 4 * y.entries) with
    | some c', some (l, n) => some ((k, c') :: l, n)
    | _, _ => none
/-- Row heads halved. -/
def halveHeads : List RowHead → Option (List RowHead)
  | [] => some []
  | h :: rest => match h.halve, halveHeads rest with | some a, some l => some (a :: l) | _, _ => none

/-! The course of a routine. -/

/-- Vectors, or column blocks, of a routine. -/
def FaCall.total (c : FaCall) : Nat :=
  match c.routine with
  | 2 | 3 | 5 | 6 => c.count
  | 4 => (c.count + 127) / 128
  | _ => 1
/-- A call issued again finds GRIDV and STATV clear, since its work has been resumed on another core or another context has
loaded a half since its save: it ends with status 0x01 unless it is LDGRID or LDSTAT (R148), also where it reads neither half
(log entry 89). -/
def FaUnit.cutOff (u : FaUnit) (c : FaCall) : Bool :=
  1 < c.routine && u.gridOwner != some c.work && u.statOwner != some c.work &&
    c.reissued.any fun r => r.moved || r.loads != u.loads
/-- The status with which a routine ends at its start (R128, R142, R146). State of the wrong kind is status 0x03 (log
entry 68). An FWDI of FORM 1 uses no half. -/
def FaUnit.startStatus (u : FaUnit) (c : FaCall) : Nat :=
  let grid := u.gridOwner == some c.work
  let stat := u.statOwner == some c.work
  let fits (y : StatInfo) : Bool := u.heads.all fun h => (c.deg + 1) * h.g ≤ c.entries && y.entries = c.entries
  match c.routine, u.info with
  | 0, _ | 1, _ => 0
  | 2, some y | 5, some y =>
    if !grid || !stat then 1 else if !y.spline || y.d ≠ c.deg || y.entries ≠ c.entries then 3
    else if fits y then 0 else 4
  | 3, some y => if !stat then 1 else if y.spline || y.lanes ≠ faLanes (c.format 0).1 then 3 else 0
  | 4, _ => if c.form1 then 0 else if !grid then 1 else if u.heads.any fun h => c.gmax < h.g then 4 else 0
  | 6, some y =>
    if !grid || !stat then 1 else if !y.spline || !y.train || y.d ≠ c.deg || y.entries ≠ c.entries then 3
    else if fits y then 0 else 4
  | 7, some y => if !stat then 1 else if !y.train then 3 else 0
  | 8, some y =>
    if !grid || !stat then 1 else if !y.spline then 3
    else if u.heads.any (fun h => 32 < 2 * h.g) || (if y.train then 16 else 64) < 2 * y.entries then 0x12
    else if u.heads.any (fun h => y.entries < (y.d + 1) * h.g) then 4 else 0
  | 9, some y =>
    if c.form1 then (if grid then 0 else 1)
    else if !stat then 1
    else if c.lform1 ≠ y.spline then 3
    else if c.lform1 then (if y.d ≠ c.deg || y.entries ≠ c.entries then 3 else 0)
    else if y.lanes ≠ faLanes (c.format 3).1 then 3 else 0
  | 9, none => if c.form1 && grid then 0 else 1
  | _, _ => 1
/-- Elements under their block scales, one for each 32 along k (R109, R133). -/
def blockScale (scales : FaRow) (vs : List Val) : List Val :=
  (vs.zipIdx).map fun (v, i) => v.mul (scaleVal ((scales[i / 32]?).getD (some 0)))
/-- The inputs of FWDI, once read (R133). -/
def FaCall.fwdiInputs (c : FaCall) : List Val :=
  let f := c.format 0
  let vs := rowVals c.efr f.1 f.2 (c.rows.headD []) c.kp
  if c.blockScaled f.1 then blockScale (c.rows[1]?.getD []) vs else vs
/-- FWDI reads the row scales of E4M3 coefficients and weights (R132). -/
def FaCall.fwdiRowScaled (c : FaCall) : Bool := (c.format 1).1 == .e4m3
/-- The rows that FWDI reads before its first column block: the inputs with their block scales, then the row scales of
E4M3. -/
def FaCall.fwdiHeads (c : FaCall) : List (Nat × Nat × Nat × Nat) :=
  let f := (c.format 0).1
  [(0, 0, 0, faBytes f c.kp)] ++ (if c.blockScaled f then [(3, 0, 0, (c.kp + 31) / 32)] else []) ++
    (if c.fwdiRowScaled then [(2, 0, 0, c.kp)] else [])
def FaCall.fwdiHead (c : FaCall) : Nat := c.fwdiHeads.length
/-- Rows of the array that take a coefficient row, with the row of the tile (R143). -/
def fwdiRows (u : FaUnit) (c : FaCall) : List (Nat × Nat) :=
  (c.fwdiInputs.zipIdx).filterMap fun (x, i) =>
    if c.form1 then some (i, i)
    else match (u.heads[i]?.getD RowHead.none).search x with
      | .at g _ _ => some (i, i * c.gmax + g)
      | .nan | .absent | .zero => none
/-- A read of an operand: which, row, first byte, bytes. -/
abbrev FaRead := Nat × Nat × Nat × Nat
/-- The reads that the next vector needs, in order (R142, R382). -/
def faReads (u : FaUnit) (c : FaCall) : List FaRead :=
  let f := (c.format 0).1
  match c.routine with
  | 0 => (List.range (if descKind (c.desc 0) < 2 then descRows (c.desc 0) else c.kp)).map fun r => (0, r, 0, 256)
  | 1 =>
    let scales : List FaRead :=
      if !c.form1 && c.blockScaled f then (List.range c.np).map fun j => (2, j, 0, faBlocks f c.kp)
      else if c.descs.any fun d => d.operand = 2 then [(2, 0, 0, c.kp)] else []
    if c.form1 then
      scales ++ (List.range (c.kp * c.np)).map (fun r => (0, r, 0, faBytes f c.entries)) ++
        (if c.wgt then (List.range c.np).map fun j => (1, j, 0, faBytes (c.format 1).1 c.kp) else [])
    else scales ++ (List.range c.np).map fun j => (0, j, 0, faBytes f (faLanes f * c.kp))
  | 2 => [(0, c.vec, 0, 2 * c.kp)]
  | 3 => (0, c.vec, 0, faBytes f (faLanes f * c.kp)) ::
      (if c.blockScaled f then [(2, c.vec, 0, faBlocks f c.kp)] else [])
  | 4 =>
    let g := (c.format 1).1
    let cols := Nat.min 128 (c.count - 128 * c.vec)
    let n := if c.form1 then 1 else c.deg + 1
    if c.rows.length < c.fwdiHead then c.fwdiHeads
    else c.fwdiHeads ++ (fwdiRows u c).map (fun r => (1, r.2, faBytes g (128 * c.vec * n), faBytes g (cols * n))) ++
      (if c.blockScaled g then (List.range cols).map fun j => (2, 128 * c.vec + j, 0, (c.kp + 31) / 32) else [])
  | 5 | 6 => [(0, c.vec, 0, 2 * c.kp), (1, c.vec, 0, 2 * c.np)]
  | _ => []

/-- The rows that the next vector of a routine finds read: FWDI keeps its inputs and scales for all column blocks. -/
def FaCall.kept (c : FaCall) : Nat := if c.routine = 4 then c.fwdiHead else 0
/-- The reads of an operand that are still to come, in order, of the vector at hand and of those behind it for which a FIFO
can hold entries (R139). -/
def faUpcoming (u : FaUnit) (c : FaCall) (op : Nat) : List FaRead :=
  let later := (List.range (Nat.min 32 (c.total - 1 - c.vec))).flatMap fun i =>
    (faReads u { c with vec := c.vec + 1 + i, rows := c.rows.take c.kept }).drop c.kept
  ((faReads u c).drop c.rows.length ++ later).filter fun r => r.1 = op
/-- What of these the fetcher has not fetched, `n` entries being in the FIFO. -/
def unfetched (c : FaCall) : Nat → List FaRead → List FaRead
  | _, [] => []
  | n, r :: rest => if n = 0 then r :: rest else unfetched c (n - entriesOf c r.1 r.2.2.2) rest
/-- The fetcher of a core runs ahead of its routine: the next row of an operand goes into its FIFO (R139). A row that cannot
be read is left to the vector that needs it (R140, log entry 110). -/
def State.faAhead (s : State) (k op : Nat) : Option State :=
  let u := s.fa k
  match u.running with
  | none => none
  | some c =>
    if !u.started || !c.fetches op then none
    else
      match unfetched c (u.entries op .fetcher).length (faUpcoming u c op) with
      | [] => none
      | (_, row, o, n) :: _ =>
        match s.faLoad k c op row o n with
        | .fetched t c' => some (t.setFa k { t.fa k with running := some c' })
        | .row .. | .status .. | .wait | .hole => none

/-- The old results that ACC adds to, read line by line through the engine port (R21, R134): their bytes, none where a line is
poisoned, which reads as NaN as an operand does (R140, log entry 88). A bank that is retired ends them (R26). -/
def State.faOld (k : Nat) (c : FaCall) : Nat → State → Nat → Nat → FaRow → State × FaRow
  | 0, s, _, _, acc => (s, acc)
  | fuel + 1, s, o, n, acc =>
    if n = 0 || s.retired.contains (64 * (k / 4) + c.bank) then (s, acc)
    else
      let m := Nat.min n (64 - o % 64)
      let r := s.bankRead (k / 4) c.bank o m true
      State.faOld k c fuel r.1 (o + m) (n - m)
        (acc ++ (bytesOf m r.2.1).map fun b => if r.2.2 then none else some b)
/-- Write a row of results at byte `o` of the result bank, line by line through its engine port, until the bank is retired
(R26): the state, and whether that has stopped it. -/
def State.faPut (k : Nat) (c : FaCall) : Nat → State → Nat → Nat → Nat → State × Bool
  | 0, s, _, _, _ => (s, false)
  | fuel + 1, s, o, n, v =>
    if n = 0 then (s, false)
    else if s.retired.contains (64 * (k / 4) + c.bank) then (s, true)
    else
      let m := Nat.min n (64 - o % 64)
      let t := (s.bankWrite (k / 4) c.bank o m (v % 2 ^ (8 * m)) false true true).forgiveWork c.work s
      State.faPut k c fuel t (o + m) (n - m) (v / 2 ^ (8 * m))
/-- Write FP32 results at byte `o` of the result bank (R134): the call, which is poisoned where a poisoned line was met
among the old results that ACC adds to, as they count as operand elements (R140, log entry 88), and whether a retired bank
has stopped it (R26). -/
def State.faWrite (s : State) (k : Nat) (c : FaCall) (o : Nat) (vs : List Val) : State × FaCall × Bool :=
  let n := 4 * vs.length
  if c.accumulate then
    let r := State.faOld k c (n / 64 + 2) s o n []
    let old (i : Nat) : Val :=
      let l := (r.2.drop (4 * i)).take 4
      if rowPoisoned l then .nan else fmtF32.decode (rowNum l)
    let out := (vs.zipIdx).map fun (v, i) => sumRne [old i, v]
    let w := State.faPut k c (n / 64 + 2) r.1 o n (packBits 32 out)
    (w.1, { c with poison := c.poison || rowPoisoned r.2 }, w.2)
  else
    let w := State.faPut k c (n / 64 + 2) s o n (packBits 32 (vs.map fmtF32.rne))
    (w.1, c, w.2)
/-- Write one row of bytes (UNLD). R134 gives ACC no meaning on rows that are not FP32 results: with it the bytes are free
(log entry 98). -/
def State.faWriteBytes (s : State) (k : Nat) (c : FaCall) (m n v : Nat) : State × Bool :=
  let v := if c.accumulate then freeBytesFrom s.freeCount n else v
  State.faPut k c (n / 64 + 2) { s with freeCount := s.freeCount + n } (c.off + m * c.stride) n v

/-- How a vector ends: the next one; a status that ends the routine. -/
inductive FaDone where
  | next (s : State) (c : FaCall)
  | status (s : State) (c : FaCall) (n : Nat)

/-- Results at byte `o` of the result bank, then the next vector; `keep` rows stay read. -/
def faResult (s : State) (k : Nat) (c : FaCall) (o keep : Nat) (vs : List Val) : FaDone :=
  let w := s.faWrite k c o vs
  if w.2.2 then .status w.1 w.2.1 0x06 else .next w.1 { w.2.1 with vec := c.vec + 1, rows := c.rows.take keep }
/-- LDGRID (R129, R142). -/
def faLdgrid (s : State) (k : Nat) (c : FaCall) : FaDone :=
  let hs := c.rows.map (gridRow c.ruleOver)
  if hs.any Option.isNone then .status s c 0x10
  else
    let u := s.fa k
    let l := hs.filterMap id
    .next (s.setFa k { u with
        gridOwner := some c.work, loads := u.loads + 1, heads := l ++ List.replicate (128 - l.length) RowHead.none })
      { c with vec := 1, rows := [] }
/-- A scale byte as the cell holds it. -/
def scaleByte (b : Option Byte) : BitVec 8 := b.getD 0xFF
/-- Row scales lie in 0x00 to 0xF5 (R132). -/
def rowScalesOk (r : FaRow) : Bool := r.all fun b => (scaleByte b).toNat ≤ 0xF5
/-- LDSTAT (R131 to R133, R142). -/
def faLdstat (s : State) (k : Nat) (c : FaCall) : FaDone :=
  let f := c.format 0
  let g := c.format 1
  let block := !c.form1 && c.blockScaled f.1
  let n := if block then c.np else if c.descs.any fun d => d.operand = 2 then 1 else 0
  let rowScales := if block || n = 0 then [] else (c.rows.headD []).map scaleByte
  if !block && n = 1 && !rowScalesOk (c.rows.headD []) then .status s c 0x11
  else
    let cellOf (i j : Nat) : FaCell :=
      if c.form1 then
        let w := if c.wgt then
            [f32Code (((rowVals c.efr g.1 g.2 (c.rows[n + c.kp * c.np + j]?.getD []) c.kp)[i]?).getD plusZero)]
          else []
        { coef := rowCodes f.1 (c.rows[n + c.kp * j + i]?.getD []) c.entries, weights := w, scales := []
          acc := if c.train then List.replicate 16 0 else [], accA := 0 }
      else
        let vs := rowVals c.efr f.1 f.2 (c.rows[n + j]?.getD []) (faLanes f.1 * c.kp)
        { coef := []
          weights := (List.range (faLanes f.1)).map fun l => f32Code (vs[faLanes f.1 * i + l]?.getD plusZero)
          scales := if block then [scaleByte (((c.rows[j]?.getD [])[faLanes f.1 * i / 32]?).getD (some 0))] else []
          acc := [], accA := 0 }
    let cells : Table FaCell := (List.range c.kp).flatMap fun i =>
      (List.range c.np).map fun j => (128 * i + j, cellOf i j)
    let y : StatInfo :=
      { spline := c.form1, d := c.deg, entries := c.entries, lanes := if c.form1 then 1 else faLanes f.1
        kp := c.kp, np := c.np, train := c.form1 && c.train, wgt := !c.form1 || c.wgt, fmt := f.1, sub := f.2
        rowScaled := (if c.form1 then g.1 else f.1) = .e4m3 }
    let u := s.fa k
    .next (s.setFa k { u with
        statOwner := some c.work, loads := u.loads + 1, info := some y, cells := cells, rowScales := rowScales })
      { c with vec := 1, rows := [] }
/-- The elements of the vector just read, with the block scales (R109, R133). -/
def FaCall.streamed (c : FaCall) (kp : Nat) : List Val :=
  let f := c.format 0
  let n := faLanes f.1 * kp
  let vs := rowVals c.efr f.1 f.2 (c.rows.headD []) n
  if c.blockScaled f.1 then blockScale (c.rows[1]?.getD []) vs else vs
/-- One column of a block of FWDI (R143). `rows` holds the coefficient rows by row of the array. -/
def fwdiColumn (u : FaUnit) (c : FaCall) (rows : List (Nat × List Val)) (j : Nat) : Val :=
  (c.fwdiInputs.zipIdx).foldl (fun p (x, i) =>
    let at_ (e : Nat) : Val := (((rows.lookup i).getD [])[e]?).getD plusZero
    if c.form1 then cellSum p [(at_ j).mul x]
    else match (u.heads[i]?.getD RowHead.none).search x with
      | .nan => .nan
      | .absent => p
      | .zero => cellSum p [plusZero]
      | .at _ t _ => cellSum p [splineTerm (fun e => at_ (j * (c.deg + 1) + e)) c.deg t]) plusZero
/-- Element `n` of row `i` of the streamed weights (R133): an O pair lies in the rows i and i xor 1, and where K' is odd the
last row has a partner that is not read, whose value is free: `free` is its row. `rows` are the rows as read. -/
def fwdiElem (c : FaCall) (rows : List (Nat × FaRow)) (free : FaRow) (i n : Nat) : Val :=
  let g := c.format 1
  let row (i : Nat) : FaRow := (rows.lookup i).getD free
  let w := faBits g.1
  if rowBad (row i) w n then .nan
  else if faIsO g.1 then
    let code (i : Nat) : Nat := rowNum (row i) / 2 ^ (w * n) % 2 ^ w
    decodeO c.efr (g.1 == .o8) (code i) (code (i + 1 - 2 * (i % 2)))
  else faElem c.efr g.1 g.2 (rowNum (row i)) n
/-- A column block of FWDI (R132, R133, R143). Weights carry the row scale of E4M3, or the block scale of their column. -/
def faFwdi (s : State) (k : Nat) (c : FaCall) : FaDone :=
  let u := s.fa k
  let g := (c.format 1).1
  let scales := if c.fwdiRowScaled then c.rows[c.fwdiHead - 1]?.getD [] else []
  if !rowScalesOk scales then .status s c 0x11
  else
    let cols := Nat.min 128 (c.count - 128 * c.vec)
    let d := if c.form1 then 1 else c.deg + 1
    let at_ := fwdiRows u c
    let read := c.rows.drop c.fwdiHead
    let rows := (at_.map (·.1)).zip read
    let blocks := read.drop at_.length
    let free := (bytesOf (faBytes g cols) (freeBytesFrom s.freeCount (faBytes g cols))).map some
    let s := if faIsO g && c.kp % 2 = 1 then { s with freeCount := s.freeCount + faBytes g cols } else s
    let scale (i n : Nat) : Val :=
      if c.fwdiRowScaled then scaleVal ((scales[i]?).getD (some 0))
      else if c.blockScaled g then scaleVal (((blocks[n / d]?.getD [])[i / 32]?).getD (some 0))
      else oneV
    let vals := (at_.map (·.1)).map fun i =>
      (i, (List.range (cols * d)).map fun n => (fwdiElem c rows free i n).mul (scale i n))
    faResult s k c (c.off + 512 * c.vec) c.fwdiHead ((List.range cols).map (fwdiColumn u c vals))
/-- Elements of the next rows of a routine with two 16-bit operands. -/
def FaCall.wideRow (c : FaCall) (op n : Nat) : List Val :=
  let f := c.format op
  rowVals c.efr f.1 f.2 (c.rows[op]?.getD []) n
/-- The place of each input in its row's grid. -/
def found (u : FaUnit) (xs : List Val) : List Found :=
  (xs.zipIdx).map fun (x, i) => (u.heads[i]?.getD RowHead.none).search x
/-- One vector of BWDC (R145). -/
def faBwdc (s : State) (k : Nat) (c : FaCall) (y : StatInfo) : FaDone :=
  let u := s.fa k
  let xs := c.wideRow 0 c.kp
  let fs := found u xs
  let gs := c.wideRow 1 c.np
  let cells : Table FaCell := u.cells.map fun (n, e) =>
    let i := n / 128
    let j := n % 128
    if i < c.kp && j < c.np then
      (n, accumulate y.d (xs[i]?.getD plusZero) (gs[j]?.getD plusZero) (fs[i]?.getD .absent) e)
    else (n, e)
  .next (s.setFa k { u with cells := cells }) { c with vec := c.vec + 1, rows := [] }
/-- GUNLD (R142, R145). -/
def faGunld (s : State) (k : Nat) (c : FaCall) : FaDone :=
  let u := s.fa k
  let row (r : Nat) : List Val :=
    match u.cell (r % c.kp) (r / c.kp) with
    | none => List.replicate 17 plusZero
    | some e => ((List.range 16).map fun n => fmtF32.decode (e.acc[n]?.getD 0).toNat) ++ [fmtF32.decode e.accA.toNat]
  let (t, c, stopped) := (List.range (c.kp * c.np)).foldl (fun (o : State × FaCall × Bool) r =>
    if o.2.2 then o else o.1.faWrite k o.2.1 (c.off + r * c.stride) (row r)) (s, c, false)
  if stopped then .status t c 0x06
  else
    let cells : Table FaCell := u.cells.map fun (n, e) =>
      if n / 128 < c.kp && n % 128 < c.np then (n, { e with acc := List.replicate 16 0, accA := 0 }) else (n, e)
    .next (if c.clr then t.setFa k { u with cells := cells } else t) { c with vec := 1, rows := [] }
/-- GREF (R146): nothing changes where a coefficient or a width goes out of range. -/
def faGref (s : State) (k : Nat) (c : FaCall) (y : StatInfo) : FaDone :=
  let u := s.fa k
  match halveHeads u.heads, halveCells u y u.cells s.freeCount with
  | some hs, some (cells, n) =>
    .next ({ s with freeCount := n }.setFa k { u with
        heads := hs, cells := cells, info := some { y with entries := 2 * y.entries } })
      { c with vec := 1, rows := [] }
  | _, _ => .status s c 0x13
/-- A grid record as UNLD writes it: what R129 gives no meaning is free. -/
def gridRecord (free : Nat) (h : RowHead) : Nat :=
  let f := freeBytesFrom free 256
  let n := 32 * (h.g + 1)
  let ks := packBits 32 (h.knots.map (·.toNat))
  let named := if h.knots = [] then 0 else n
  (if named = 0 then f % 2 ^ 1064 else ks % 2 ^ n + f % 2 ^ 1064 / 2 ^ n * 2 ^ n) +
    h.g * 2 ^ 1064 + h.rule * 2 ^ 1072 + f / 2 ^ 1080 * 2 ^ 1080
/-- UNLD (R142): values without a row or block scale (log entry 68), in the rows of the LDSTAT layout in the call's
format, weight rows after coefficient rows (log entry 19), or grid records. -/
def faUnld (s : State) (k : Nat) (c : FaCall) : FaDone :=
  let u := s.fa k
  let f := c.format 3
  let enc (v : Val) : Nat := faEncode c.efr f.1 f.2 v
  let pack (l : List Nat) : Nat := packBits (faBits f.1) l
  -- What a cell that no routine has loaded holds is free.
  let free (n : Nat) : Nat := Config.freeNat (s.freeCount + 2 ^ 15 + n) % 2 ^ faBits f.1
  let weights (i j : Nat) : List Nat :=
    (List.range (faLanes f.1)).map fun l =>
      match u.cell i j with
      | some e => enc (fmtF32.decode (e.weights[l]?.getD 0).toNat)
      | none => free (4 * (128 * i + j) + l)
  let code (y : StatInfo) (i j n : Nat) : Nat :=
    match u.cell i j with
    | none => free (2 ^ 16 + 64 * (128 * i + j) + n)
    | some e =>
      let x := (e.coef[n]?.getD 0).toNat
      if y.fmt = f.1 then x else enc (coefVal y.fmt x (some 127))
  let rows : List (Nat × Nat) :=
    if c.form1 then (List.range c.kp).map fun i =>
      (256, gridRecord (s.freeCount + 256 * i) (u.heads[i]?.getD RowHead.none))
    else
      match u.info with
      | none => []
      | some y =>
        if !c.lform1 then (List.range c.np).map fun j =>
          (faBytes f.1 (faLanes f.1 * c.kp), pack ((List.range c.kp).flatMap fun i => weights i j))
        else
          (List.range (c.kp * c.np)).map (fun r =>
            (faBytes f.1 c.entries, pack ((List.range c.entries).map (code y (r % c.kp) (r / c.kp))))) ++
          (if c.wgt && y.wgt then (List.range c.np).map fun j =>
              (faBytes f.1 c.kp, pack ((List.range c.kp).map fun i => (weights i j).headD 0))
            else [])
  let s := { s with freeCount := s.freeCount + 2 ^ 15 + 2 ^ 16 + 2 ^ 20 }
  let (t, stopped) := (rows.zipIdx).foldl (fun (o : State × Bool) ((n, v), m) =>
    if o.2 then o else o.1.faWriteBytes k c m n v) (s, false)
  if stopped then .status t c 0x06 else .next t { c with vec := 1, rows := [] }
/-- What a routine does with a vector whose rows are read. -/
def faVector (s : State) (k : Nat) (c : FaCall) : FaDone :=
  let u := s.fa k
  match c.routine, u.info with
  | 0, _ => faLdgrid s k c
  | 1, _ => faLdstat s k c
  | 2, some y =>
    let xs := c.wideRow 0 c.kp
    faResult s k c (c.off + c.vec * c.stride) 0 ((List.range c.np).map (fwdsColumn u y c.deg xs (found u xs)))
  | 3, some y =>
    faResult s k c (c.off + c.vec * c.stride) 0 ((List.range c.np).map (fwdlColumn u y c.kp (c.streamed c.kp)))
  | 4, _ => faFwdi s k c
  | 5, some y =>
    let fs := found u (c.wideRow 0 c.kp)
    faResult s k c (c.off + c.vec * c.stride) 0
      ((fs.zipIdx).map fun (f, i) => bwdxRow u y c.np (c.wideRow 1 c.np) f i)
  | 6, some y => faBwdc s k c y
  | 7, _ => faGunld s k c
  | 8, some y => faGref s k c y
  | 9, _ => faUnld s k c
  | _, _ => .status s c 0x01

/-! Events (R137, R141, R147). -/

/-- Bits of the FA status word that a completion sets. -/
def faWord (poison : Bool) (count routine status : Nat) : Word :=
  BitVec.ofNat 64 (b2n poison * 2 ^ 60 + count % 2 ^ 16 * 2 ^ 32 + routine % 256 * 256 + status)
/-- Set the FA status word of a work's context. -/
def State.setFastat (s : State) (work : Nat) (f : Word → Word) : State :=
  match s.placeOf work with
  | some l => s.modCtx l fun c => { c with fastat := f c.fastat }
  | none => s
/-- A routine completes with a status: the queued one is next, and FAWAITs end (R137, R147, R309). COUNT of a routine
without vectors or column blocks is 0 (log entry 100). -/
def State.faFinish (s : State) (k : Nat) (c : FaCall) (status : Nat) : State :=
  let u := s.fa k
  let s := s.setFa k { u with running := u.queued, started := false, queued := none }
  let count := if [2, 3, 4, 5, 6].contains c.routine then c.vec else 0
  let s := s.setFastat c.work fun _ => faWord c.poison count c.routine status
  s.wake fun l y =>
    if y.status = .waiting .fa && coreOf l = k && !(s.fa k).busy y.work then some .completes else none
/-- The lead of a multicast, whose stream needs the other cores (R141). -/
def FaCall.leads (c : FaCall) (k : Nat) : Bool :=
  [2, 3, 4, 5, 6].contains c.routine && (List.range 4).any fun i => i ≠ k % 4 && c.mcast / 2 ^ i % 2 = 1
/-- Every core that a lead names has started its routine, with a streamed descriptor of KIND 3 (R141). -/
def State.castReady (s : State) (k : Nat) (c : FaCall) : Bool :=
  (List.range 4).all fun i =>
    i = k % 4 || c.mcast / 2 ^ i % 2 = 0 ||
      ((s.fa (4 * (k / 4) + i)).started &&
        (s.fa (4 * (k / 4) + i)).running.any fun f =>
          f.routine = c.routine && (descKind (f.desc 0) = 3 || descKind (f.desc 1) = 3))
/-- FA_ROUTINE_START (R137, R147): a routine that fails at its start completes at once. -/
def execFaRoutineStart (k : Fin 256) (s : State) : Host.Outcome State Fault Refusal :=
  let u := s.fa k.val
  match u.running with
  | none => .next s
  | some c =>
    if u.started then .next s
    else
      let s := s.setFastat c.work fun w => w &&& 0xFF00#64
      match c.dead with
      | some n => .next (s.faFinish k.val c n.toNat)
      | none =>
        if !u.cutOff c && 16 ≤ c.routine then .fault .opaqueMicroprogram
        else
          let n := if u.cutOff c then 1 else u.startStatus c
          if n ≠ 0 then .next (s.faFinish k.val c n) else
            .next (s.setFa k.val { u with started := true, firstBeat := s.cycle })
/-- FA_MULTICAST_START (R141). -/
def execFaMulticastStart (k : Fin 256) (s : State) : Host.Outcome State Fault Refusal :=
  let u := s.fa k.val
  match u.running with
  | none => .next s
  | some c =>
    .next (if u.started && c.leads k.val && s.castReady k.val c then
      s.setFa k.val { u with running := some { c with streaming := true } } else s)
/-- All vectors are done, and the declared beats have passed since the first (R137). -/
def FaUnit.beatsDone (u : FaUnit) (c : FaCall) (cycle : Nat) : Bool :=
  u.started && c.total ≤ c.vec && u.firstBeat + c.beats ≤ cycle
/-- FA_ROUTINE_COMPLETE (R137): every vector is done. -/
def execFaRoutineComplete (k : Fin 256) (s : State) : Host.Outcome State Fault Refusal :=
  let u := s.fa k.val
  match u.running with
  | none => .next s
  | some c => .next (if u.beatsDone c s.cycle then s.faFinish k.val c 0 else s)
/-- A routine that ends early: what its fetcher or its lead has put into the FIFOs for it goes (R147, log entry 110). -/
def State.faStop (s : State) (k : Nat) (c : FaCall) (status : Nat) : State :=
  (s.setFa k (s.fa k).dropStreams).faFinish k c status
/-- The inputs of an FWDI with O pairs along k (R133) have no partner for the last one where K' is odd: that value is free. -/
def State.padInputs (s : State) (c : FaCall) (op : Nat) (r : FaRow) : State × FaRow :=
  if c.routine = 4 && op = 0 && (c.format 0).1 = .o8 && c.kp % 2 = 1
  then (s.drawn, r ++ [some (Config.freeByte s.freeCount)]) else (s, r)
/-- The next read, or the next vector, of the running routine of a core; none where it can only wait. -/
def State.faAdvance (s : State) (k : Nat) : Option (Host.Outcome State Fault Refusal) :=
  let u := s.fa k
  match u.running with
  | none => none
  | some c =>
    if !u.started || c.total ≤ c.vec || (c.leads k && !c.streaming) then none
    else
      match (faReads u c)[c.rows.length]? with
      | some (op, row, o, n) =>
        (match s.faRead k c op row o n with
          | .wait => none
          | .hole => some (.fault .reservedAddress)
          | .status s n => some (.next (s.faStop k c n))
          | .fetched s c => some (.next (s.setFa k { s.fa k with running := some c }))
          | .row s c r =>
            let p := s.padInputs c op r
            let c := { c with rows := c.rows ++ [p.2], poison := c.poison || rowPoisoned r }
            some (.next (p.1.setFa k { p.1.fa k with running := some c })))
      | none =>
        match faVector s k c with
        | .next s c => some (.next (s.setFa k { s.fa k with running := some c }))
        | .status s c n => some (.next (s.faStop k c n))

/-! Pre-emption and microprograms (R148, R305). -/

/-- The status with which a re-issued call that fails a check ends (R148). -/
def reissueStatus (cause sub : Nat) : Nat :=
  if cause = 0x0A && sub = 0x04 then 0x04 else if cause = 0x03 && sub = 0x03 then 0x06 else 0x03
/-- FA_CALL_REISSUE (R148): once the array accepts it. -/
def execFaCallReissue (loc : Fin 1024) (s : State) : Host.Outcome State Fault Refusal :=
  let a := s.actAs loc.val
  let k := coreOf loc.val
  match a.me.faCall with
  | none => .next s
  | some c =>
    if a.me.status ≠ .running || (a.fa k).full then .next s
    else
      let call := match a.faCheck c with
        | .accepted c => c
        | .trap cause sub => { c with dead := some (BitVec.ofNat 8 (reissueStatus cause sub)) }
      .next ((((a.readLines (a.descLines c)).faEnqueue k call).modMe fun y => { y with faCall := none }).actAs s.cur)
/-- Set FAMPST of the context that issued a job; it stands in the save area while that is Saved (R304, R306). -/
def State.setFampst (s : State) (work index status : Nat) : State :=
  let v := 2 ^ 63 + index * 2 ^ 16 + status
  match s.placeOf work with
  | some l => s.modCtx l fun c => { c with fampst := BitVec.ofNat 64 v }
  | none =>
    match s.saved.find? fun (v : Saved) => v.work = work with
    | none => s
    | some e => (s.homeWrite 0 (e.area + 0x80A8) 8 v none).1
/-- A FAMPW job ends (R305): nothing but a status of 0x00 installs an image. -/
def State.endFampw (s : State) (j : Job) (index status image : Nat) : State :=
  let s := if status = 0 then { s with images := Table.set 0 s.images index image } else s
  ((s.setFampst j.work index status).arriveOnce j).dropJob j.id
/-- MICROPROGRAM_VERIFY (R305): the first FAMPW job of the module. Whether its two signatures verify comes from outside; an
image that fails verification is logged (R263). -/
def execMicroprogramVerify (id : Nat) (ecdsaOk lmsOk : Bool) (s : State) : Host.Outcome State Fault Refusal :=
  match s.job id with
  | none => .next s
  | some j =>
    match j.kind with
    | .fampw image =>
      let earlier := s.jobs.any fun i => i.id < id && (match i.kind with | .fampw _ => true | _ => false)
      if earlier || j.request.isSome || s.jobHeld j then .next s
      else
        let stop (s : State) (index : Nat) (st : EngineStop) : Host.Outcome State Fault Refusal :=
          match st with
          | .hole => .fault .reservedAddress
          | .absent va => if j.refused then .next (s.endFampw j index 0x04 0) else .next (s.jobRequest j va)
          | .status _ => .next (s.endFampw j index 0x04 0)
        match s.jobRead j image 64 with
        | .inr (t, st) => stop t 0 st
        | .inl (s1, _, h, _) =>
          let len := bits h 31 0
          let index := bits h 39 32
          if len < 4096 || 2 ^ 20 < len || len % 64 ≠ 0 || index < 16 then .next (s1.endFampw j index 0x01 0)
          else
            match s1.jobRead j image len with
            | .inr (t, st) => stop t index st
            | .inl (s2, pts, v, _) =>
              let svn := bits h 63 48
              let status := if !(ecdsaOk && lmsOk) then 0x02 else if svn < s2.mgmt.rollback then 0x03 else 0x00
              let s3 := if status = 0 then s2 else s2.post 0x0050 2 0 svn
              .next (s3.endFampw { j with pts := pts } index status v)
    | .copy .. | .reloc .. | .msweep .. | .smap .. | .swb .. | .preq _ | .task .. | .tdep .. | .reshard .. | .coll .. =>
      .next s

end Sys2Proof.Machine
end

