-- ==== Sys2Proof/Machine/Hts.lean ====
section
/-! DEFINITION. The hardware task scheduler: queues, submission and validation of launch records, dispatch, aging, the
start of instances, and the resume of Saved ones (R80, R128, R191 to R200, R218, R221, R223, R354 to R356, R383). -/

namespace Sys2Proof.Machine

def State.queue (s : State) (q : Nat) : Queue := Table.get Queue.reset s.queues q
def State.setQueue (s : State) (q : Nat) (u : Queue) : State :=
  { s with queues := Table.set Queue.reset s.queues q u }

/-! Launch records (R193), placement maps (R194), job cards (R199). -/

def recHandle (r : Nat) : Nat := bits r 47 36
def recRoot (r : Nat) : Word := BitVec.ofNat 64 (bits r 307 268 * 4096)
def recInstances (r : Nat) : Nat := bits r 35 26 + 1
def recGang (r : Nat) : Nat := bits r 25 19
/-- No reserved bit of a record is set, and ENTRY lies below 2^57 (R193). -/
def recFieldsOk (r : Nat) : Bool :=
  bits r 18 16 = 0 && bits r 50 48 = 0 && bits r 255 96 = 0 && bits r 511 505 = 0
/-- Read `n` bytes for the HTS in an address space, with the state after the reads; none where a line is not resident and
readable (R194, R199). That it reads as privileged, so that a page with U = 0 is readable to it, is log entry 99; that it takes
the bits of a poisoned line as they stand is log entry 133. -/
def State.htsRead (s : State) (root pts : Word) (va n : Nat) : State × Option Nat :=
  if 2 ^ 57 ≤ va then (s, none)
  else
    match State.engineRead root false (n / 64 + 2) s pts (BitVec.ofNat 64 va) n with
    | .inl (t, _, v, _) => (t, some v)
    | .inr (t, _) => (t, none)
/-- The entries of a map of `n` instances. -/
def mapTargets (v n : Nat) : List Target :=
  (List.range n).map fun i =>
    let e := v / 2 ^ (128 * i)
    (bits e 9 0, BitVec.ofNat 64 (bits e 127 64), BitVec.ofNat 16 (bits e 63 48))
/-- Two entries name one context, or two of one cluster share a bank (R194). -/
def targetsClash : List Target → Bool
  | [] => false
  | t :: rest =>
    rest.any (fun u => u.1 = t.1 || (clusterOf u.1 = clusterOf t.1 && u.2.1 &&& t.2.1 ≠ 0)) || targetsClash rest
/-- The map of a record, unless it is invalid (R194). -/
def State.readMap (s : State) (r : Nat) (pts : Word) : State × Option (List Target) :=
  let a := bits r 447 384
  let n := recInstances r
  if a % 16 ≠ 0 then (s, none)
  else
    match s.htsRead (recRoot r) pts a (16 * n) with
    | (s, none) => (s, none)
    | (s, some v) =>
      let ts := mapTargets v n
      (s, if (List.range n).any (fun i => bits v (128 * i + 47) (128 * i + 10) ≠ 0) || targetsClash ts then none
        else some ts)
/-- Two places of a list lie on one core. -/
def coresClash : List Nat → Bool
  | [] => false
  | l :: rest => rest.any (fun m => coreOf m = coreOf l) || coresClash rest
/-- The gang size of a record fits its map (R194). -/
def gangOk (gang : Nat) (ts : List Target) : Bool :=
  gang = 0 || (gang = ts.length && !coresClash (ts.map (·.1)) &&
    ts.all fun t => towerOf t.1 = towerOf ((ts.headD (0, 0, 0)).1))
/-- The retired bank that a map assigns, by cluster and bank (R27); of several the lowest one of the first entry that has
any, which no rule says (log entry 113). -/
def State.retiredTarget (s : State) (ts : List Target) : Option (Nat × Nat) :=
  ts.findSome? fun t => (List.range 64).findSome? fun b =>
    if t.2.1.getLsbD b && s.retired.contains (64 * clusterOf t.1 + b) then some (clusterOf t.1, b) else none
/-- One region of a job card, for each cluster of the task where it is a scratchpad region; none where it is invalid
(R199). -/
def cardRegion (root : Nat) (clusters : List Nat) (e : Nat) : Option (List FootRegion) :=
  if bits e 125 104 ≠ 0 then none
  else if bits e 127 127 = 0 then some []
  else
    let len := bits e 103 64
    let write := bits e 126 126 = 1
    match copyEnd (BitVec.ofNat 64 (bits e 63 0)) with
    | none => none
    | some (.scratch b o) =>
      if bankSize < o + len then none
      else some (clusters.map fun k =>
        { scratch := true, space := k, base := b * bankSize + o, len := len, write := write })
    | some (.virt va) =>
      if 2 ^ 57 < va + len then none
      else some [{ scratch := false, space := root, base := va, len := len, write := write }]
/-- The footprint of a record, unless its job card is invalid (R199). -/
def State.readCard (s : State) (r : Nat) (pts : Word) (ts : List Target) : State × Option (List FootRegion) :=
  let a := bits r 383 320
  if a = 0 then (s, some [])
  else if a % 64 ≠ 0 then (s, none)
  else
    match s.htsRead (recRoot r) pts a 64 with
    | (s, none) => (s, none)
    | (s, some v) =>
      let clusters := (ts.map fun t => clusterOf t.1).eraseDups
      let rs := (List.range 4).map fun i => cardRegion (recRoot r).toNat clusters (v / 2 ^ (128 * i) % 2 ^ 128)
      (s, if rs.any (·.isNone) then none else some (rs.flatMap fun o => o.getD []))

/-! Submission (R192, R196, R354, R383). -/

/-- What validation finds: a refusal with its status word, or the targets and the footprint. -/
inductive Verdict where
  | refused (w : Nat)
  | ok (ts : List Target) (foot : List FootRegion)
  deriving DecidableEq, Repr

/-- Validation of a record in the order of R383. -/
def State.validate (s : State) (q r : Nat) (pts : Word) : State × Verdict :=
  if !(s.queue q).en then (s, .refused 0x87)
  else if bits r 15 0 ≠ 0x0300 then (s, .refused 0x81)
  else if !recFieldsOk r then (s, .refused 0x88)
  else if s.tasks.any fun t => t.handle = recHandle r then (s, .refused 0x86)
  else
    match s.readMap r pts with
    | (s, none) => (s, .refused 0x82)
    | (s, some ts) =>
      if !gangOk (recGang r) ts then (s, .refused 0x85)
      else
        match s.retiredTarget ts with
        | some (k, b) => (s, .refused (0x83 + b * 2 ^ 16 + k % 16 * 2 ^ 22 + k / 16 * 2 ^ 26))
        | none =>
          match s.readCard r pts ts with
          | (s, none) => (s, .refused 0x84)
          | (s, some foot) => (s, .ok ts foot)
/-- Append the record of a slot to its queue (R192): it is Queued, then refused or kept; DEPS goes to the counter
(R196), where it is not refused (log entry 104). Its tower is that of map entry 0 (R200, log entry 105). -/
def State.appendRecord (s : State) (q slot : Nat) (pts : Word) : State :=
  let rec_ := Table.get 0 s.slotRecords (64 * q + slot)
  let r := rec_.toNat
  match (s.setSlotStatus q slot 1#64).validate q r pts with
  | (s, .refused w) => s.setSlotStatus q slot (BitVec.ofNat 64 w)
  | (s, .ok ts foot) =>
    let h := recHandle r
    let t : TaskInfo :=
      { id := s.nextId, tower := towerOf ((ts.headD (0, 0, 0)).1), handle := h, queue := q, slot := slot
        notify := if bits r 51 51 = 1 then some (bits r 63 52) else none
        domain := bits r 95 80, foot := foot, started := false, live := [], dead := false }
    let e : QEntry :=
      { slot := slot, record := rec_, task := s.nextId, targets := ts, readySince := none, aged := 0, pts := pts }
    let u := s.queue q
    { s with
      nextId := s.nextId + 1
      tasks := s.tasks ++ [t]
      depCounters := Table.set 0 s.depCounters h (Table.get 0 s.depCounters h + bits r 79 64)
      }.setQueue q { u with entries := u.entries ++ [e] }
/-- A write to the doorbell of a queue (R192). -/
def State.doorbell (s : State) (q bytes : Nat) (aligned : Bool) (first count : Nat) : State :=
  if bytes ≠ 64 || !aligned || count = 0 || 64 < count then s.count
  else (List.range count).foldl (fun s i => s.appendRecord q ((first % 64 + i) % 64) 0) s
/-- A write of queue control (R191); without CXL, EN cannot be set (R250). -/
def State.writeQueueControl (s : State) (q : Nat) (data : Word) : State :=
  s.setQueue q { s.queue q with en := data.getLsbD 8 && s.mgmt.cxl, level := Fin.ofNat 4 (data.toNat % 4) }

/-! Dispatch (R80, R197, R198, R200, R223). -/

/-- The banks that a COLL that has not started keeps: that of the counter array of its record as it stands, and every
bank of its work while the record's page is absent (R274, log entry 18). -/
def State.banksAhead (s : State) (j : Job) : BitVec 64 :=
  match s.recordAhead j with
  | .found r => if bits r 15 0 = 0x0300 then (match scratchWord (BitVec.ofNat 64 (bits r 319 256)) with
      | some (b, _) => 1#64 <<< b
      | none => 0) else 0
  | .absent => s.banksOf j
  | .lost => 0
/-- Bank sets of live and Saved contexts of a cluster, and the banks that active collectives keep (R80, R274). -/
def State.banksTaken (s : State) (cluster : Nat) : BitVec 64 :=
  let live := (s.places.filter fun l => clusterOf l = cluster && (s.ctx l).status ≠ .idle).foldl
    (fun b l => b ||| (s.ctx l).banks) 0
  let kept := s.saved.foldl (fun b (v : Saved) => if clusterOf v.loc = cluster then b ||| v.banks else b) live
  s.jobs.foldl (fun b j =>
    match j.kind with
    | .coll _ (some c) =>
      if c.version ≠ 0x0200 && clusterOf j.loc = cluster then b ||| (1#64 <<< bankOfPa c.cnt) else b
    | .coll _ none => if clusterOf j.loc = cluster then b ||| s.banksAhead j else b
    | _ => b) kept
/-- A target is free (R80). -/
def State.targetFree (s : State) (t : Target) : Bool :=
  (s.ctx t.1).status = .idle && t.2.1 &&& s.banksTaken (clusterOf t.1) = 0
/-- An earlier job or task of its domain holds a task (R200). -/
def State.taskHeld (s : State) (t : TaskInfo) : Bool :=
  s.jobs.any (fun j => j.id < t.id && j.domain = t.domain && footMeets j.foot t.foot) ||
    s.tasks.any fun u => u.id < t.id && u.domain = t.domain && footMeets u.foot t.foot
/-- The footprint tracking of the tower of a task is full (R200): every footprinted job in flight counts, queued tasks and the
task itself among them (R199, log entry 31). -/
def State.noTracking (s : State) (t : TaskInfo) : Bool := decide (1024 ≤ s.tracked t.tower)
/-- The head of a queue with its task. -/
def State.head (s : State) (q : Nat) : Option (QEntry × TaskInfo) :=
  match (s.queue q).entries with
  | [] => none
  | e :: _ => (s.tasks.find? fun (t : TaskInfo) => t.id = e.task).map fun t => (e, t)
/-- A ready head: its counter is zero and its edges are clear (R198). -/
def State.headReady (s : State) (q : Nat) : Option (QEntry × TaskInfo) :=
  (s.head q).filter fun h => Table.get 0 s.depCounters h.2.handle = 0 && !s.taskHeld h.2
/-- A dispatchable head (R197). -/
def State.dispatchable (s : State) (q : Nat) : Option (QEntry × TaskInfo) :=
  (s.headReady q).filter fun h => !s.noTracking h.2 && h.1.targets.all s.targetFree
/-- The effective level of a queue's head or Saved instance after `aged` milliseconds (R198, R223). -/
def State.effective (s : State) (q aged : Nat) : Nat := Nat.min 3 ((s.queue q).level.val + aged)
/-- The queue of a task. -/
def State.queueOf (s : State) (task : Nat) : Option Nat :=
  (s.tasks.find? fun (t : TaskInfo) => t.id = task).map (·.queue)
/-- The effective level of a Saved instance. -/
def State.savedLevel (s : State) (v : Saved) : Nat :=
  match s.queueOf v.task with
  | some q => s.effective q v.aged
  | none => Nat.min 3 v.aged
/-- The instances that resume together with a Saved one: its gang, lead first, or itself (R221). -/
def State.resumeGroup (s : State) (v : Saved) : List Saved :=
  if v.gidx.getLsbD 63 then
    let ms := s.saved.filter fun (u : Saved) => u.task = v.task && u.gidx.getLsbD 63
    (List.range 64).flatMap fun k => ms.filter fun u => bits u.gidx.toNat 5 0 = k
  else [v]
/-- A place for each instance of a group (R221): the saved context when it is Idle, else the first Idle context of the
cluster; a gang takes distinct cores. The members choose in the order of their indices, which R221 leaves open (log entry
136). -/
def State.placeGroup (s : State) : List Saved → List Nat → Option (List (Saved × Nat))
  | [], _ => some []
  | v :: rest, used =>
    let free (l : Nat) : Bool := (s.ctx l).status = .idle && !used.contains (coreOf l)
    let at_ := if free v.loc then some v.loc else ((List.range 16).map (16 * clusterOf v.loc + ·)).find? free
    match at_ with
    | none => none
    | some l => (s.placeGroup rest (coreOf l :: used)).map fun r => (v, l) :: r
/-- Where a Saved instance and its gang would resume; none while it is not resumable (R223). -/
def State.resumable (s : State) (v : Saved) : Option (List (Saved × Nat)) :=
  if v.gidx.getLsbD 63 && !(s.gangOf v.task).isEmpty then none else s.placeGroup (s.resumeGroup v) []

/-- A dispatch decision. -/
inductive Decision where
  | resume (v : Saved)
  | start (q : Nat)
  | wait
  deriving DecidableEq, Repr

/-- The oldest save of a list. -/
def oldest : List Saved → Option Saved
  | [] => none
  | v :: rest =>
    match oldest rest with
    | none => some v
    | some u => if u.since < v.since then some u else some v
/-- The dispatch decision (R198, R223): the highest effective level; there a resumable Saved instance before any head,
the oldest save first; heads round-robin after the queue served last at that level. -/
def State.decision (s : State) : Decision :=
  let sv := s.saved.filter fun v => (s.resumable v).isSome
  let qs := (s.queues.map (·.1)).filterMap fun q => (s.dispatchable q).map fun h => (q, s.effective q h.1.aged)
  let top := Nat.max ((sv.map s.savedLevel).foldl Nat.max 0) ((qs.map (·.2)).foldl Nat.max 0)
  match oldest (sv.filter fun v => s.savedLevel v = top) with
  | some v => .resume v
  | none =>
    let last := (s.served[top]?).getD 63
    match ((List.range 64).map fun i => (last + 1 + i) % 64).find? fun q => qs.contains (q, top) with
    | some q => .start q
    | none => .wait

/-- An instance's context (R91, R195): PC ENTRY, s1 to s8 the arguments, its banks, WID and address space. -/
def instanceCtx (r : Nat) (t : Target) (gidx pts : Word) (task work : Nat) : Ctx :=
  { Ctx.reset with
    status := .ready
    pc := BitVec.ofNat 64 (bits r 511 448 / 4 * 4)
    regs := { Regs.reset with s := Vector.ofFn fun i : Fin 64 =>
      if 1 ≤ i.val && i.val ≤ 8 then BitVec.ofNat 64 (bits r (64 * (i.val - 1) + 575) (64 * (i.val - 1) + 512)) else 0 }
    ptroot := recRoot r
    banks := t.2.1
    wid := t.2.2
    gidx := gidx
    pts := pts
    task := task
    work := work }
/-- GIDX of member `k` of a gang of `n`; 0 outside a gang (R83, R93). -/
def gidxOf (n k : Nat) : Word := if n = 0 then 0 else BitVec.ofNat 64 (2 ^ 63 + n * 256 + k)
/-- Start every instance of a dispatchable head together and advance the queue (R195, R197). The task acquires what
its submission and the decrements of its counter released (R187, R355). -/
def State.startTask (s : State) (q : Nat) : State :=
  match s.dispatchable q with
  | none => s
  | some (e, t) =>
    let r := e.record.toNat
    let pts := wmax e.pts (Table.get 0 s.depReleases t.handle)
    let first := s.nextId
    let s := (e.targets.zipIdx).foldl (fun (s : State) (x, i) =>
      s.setCtx x.1 (instanceCtx r x (gidxOf (recGang r) i) pts t.id (first + i))) s
    let u := s.queue q
    let s := { s with
      nextId := first + e.targets.length
      served := s.served.setIfInBounds (s.effective q e.aged) q
      tasks := s.tasks.map fun (k : TaskInfo) =>
        if k.id = t.id then { k with started := true, live := (List.range e.targets.length).map (first + ·) } else k
      }.setQueue q { u with entries := u.entries.tail }
    e.targets.foldl (fun (s : State) x => s.readyOn (coreOf x.1)) (s.setSlotStatus q e.slot 2#64)

/-! Resume (R128, R148, R217, R221). -/

/-- The array halves of a work that resumes on another core are lost (R128). -/
def State.loseHalves (s : State) (core work : Nat) : State :=
  let u := s.fa core
  s.setFa core { u with
    gridOwner := if u.gridOwner = some work then none else u.gridOwner
    statOwner := if u.statOwner = some work then none else u.statOwner }
/-- A member of a formed gang takes its core: a context that runs there is Ready until the gang ends (R94, log entry 93). One
that is being pre-empted, waits at GANG, or is itself a member of a formed gang keeps the core. -/
def State.takeCore (s : State) (loc : Nat) : State :=
  let k := coreOf loc
  match (s.core k).current with
  | none => s
  | some x =>
    let l := 4 * k + x.val
    let c := s.ctx l
    if !(s.ctx loc).ganged || c.ganged || c.atGang || c.stopping.isSome || c.status != .running then s
    else
      (s.setCore k { s.core k with
        current := none, last := x
        notBefore := Nat.max (s.core k).notBefore (c.lastAt + Config.switchDelay) }).modCtx l fun y =>
          { y with status := .ready, unissued := false }
/-- Restore a Saved instance at a place (R217, R221): its jobs go on, its copies are issued again, its area is free. -/
def State.resumeAt (s : State) (v : Saved) (loc : Nat) : State :=
  let base : Ctx := { Ctx.reset with
    status := .ready, ptroot := v.root, task := v.task, work := v.work, regions := v.regions, spawned := v.spawned
    eccLatched := v.ecc, eccLater := v.eccLater, m0 := v.m0, m0Later := v.m0Later, fastat := v.fastat
    gidx := v.gidx, ganged := v.ganged, fresh := v.fresh }
  let moved := coreOf loc ≠ coreOf v.loc
  let c := base.restore s.mem v.area loc
  let c := { c with
    banks := v.banks, faCall := c.faCall.map fun (f : FaCall) => f.again { v.reissue with moved := v.reissue.moved || moved } }
  let here := s.cur
  let s := { s with
    saved := s.saved.filter fun (u : Saved) => u.work ≠ v.work
    jobs := s.jobs.map fun (j : Job) => if j.work = v.work then { j.unpause v.work with loc := loc } else j }
  let s := if moved then s.loseHalves (coreOf v.loc) v.work else s
  (((((s.setCtx loc c).actAs loc).reissueCopies v.area).freeAreaAt (clusterOf loc) v.area).actAs here |>.takeCore
    loc).readyOn (coreOf loc)
/-- A Saved instance whose area fails the version test ends (R221). The area stays taken, which no rule says (log entry 126). -/
def State.endSaved (s : State) (v : Saved) : State :=
  let s := ((s.faultRecord (s.taskHandle v.task * 2 ^ 64) v.loc).failTask v.task).dropRegions v.work v.loc v.regions
  let s := s.cancelColls v.work v.banks
  let s := { s with
    saved := s.saved.filter fun (u : Saved) => u.work ≠ v.work
    jobs := s.jobs.map fun (j : Job) => j.unpause v.work
    workPts := Table.set 0 s.workPts v.work (BitVec.ofNat 64 (loadBytes s.mem (v.area + 0x358) 8)) }
  s.endWork v.work v.task
/-- Resume an instance and its gang, unless an area fails the version test: then they end (R221). -/
def State.resume (s : State) (v : Saved) : State :=
  match s.resumable v with
  | none => s
  | some l =>
    if l.any fun x => loadBytes s.mem x.1.area 2 ≠ 0x0300 then l.foldl (fun (s : State) x => s.endSaved x.1) s
    else l.foldl (fun (s : State) x => s.resumeAt x.1 x.2) s

/-! Requests for pre-emption (R218). -/

/-- The contexts that a request for one of them means: a gang's members, or itself (R97, R218). -/
def State.preemptGroup (s : State) (l : Nat) : List Nat :=
  if (s.ctx l).gidx.getLsbD 63 then s.gangOf (s.ctx l).task else [l]
/-- A request for pre-emption; one for an Idle context is ignored. It takes effect at a later point (R219). -/
def State.requestPreempt (s : State) (l : Nat) : State :=
  if (s.ctx l).status = .idle then s
  else
    (s.preemptGroup l).foldl (fun (s : State) m => s.modCtx m fun c =>
      if c.preempt || c.stopping.isSome then c else { c with preempt := true, atPoint := false }) s
/-- The pools hold an area for each context of a list (R218). -/
def State.areasFor (s : State) (ls : List Nat) : Bool :=
  ls.all fun l => decide (ls.countP (fun m => clusterOf m = clusterOf l) ≤ (s.cluster (clusterOf l)).areasFree)
/-- The contexts whose pre-emption the HTS requests for the head of a queue (R218). -/
def State.victims (s : State) (q : Nat) : List Nat :=
  match s.headReady q with
  | none => []
  | some (e, t) =>
    let busy := (e.targets.map (·.1)).filter fun l => (s.ctx l).status ≠ .idle
    let all := (busy.flatMap s.preemptGroup).eraseDups
    if s.effective q e.aged = 3 && !s.noTracking t &&
        e.targets.all (fun x => x.2.1 &&& s.banksTaken (clusterOf x.1) = 0) &&
        busy.all (fun l => match s.queueOf (s.ctx l).task with | some p => (s.queue p).level ≠ 3 | none => false) &&
        s.areasFor all
      then all.filter fun l => !(s.ctx l).preempt && (s.ctx l).stopping.isNone
      else []
/-- The first queue whose head now asks for pre-emptions. -/
def State.asking (s : State) : Option Nat := (s.queues.map (·.1)).find? fun q => s.victims q ≠ []

/-! Events. -/

/-- HTS_DOORBELL_SUBMIT (R192). -/
def execHtsDoorbellSubmit (q : Fin 64) (bytes : Nat) (aligned : Bool) (first count : Byte) (s : State) :
    Host.Outcome State Fault Refusal := .next (s.doorbell q.val bytes aligned first.toNat count.toNat)
/-- QUEUE_CONTROL_WRITE (R191). -/
def execQueueControlWrite (q : Fin 64) (data : Word) (s : State) : Host.Outcome State Fault Refusal :=
  .next (s.writeQueueControl q.val data)
/-- A write at the pre-emption request offset (R218). -/
def State.writePreempt (s : State) (data : Word) : State :=
  if data.getLsbD 15 then s.requestPreempt (bits data.toNat 9 0) else s
/-- PREEMPT_REQUEST_WRITE (R218). -/
def execPreemptRequestWrite (data : Word) (s : State) : Host.Outcome State Fault Refusal := .next (s.writePreempt data)
/-- TASK_RECORD_SUBMIT (R354): the TASKs of a work reach the HTS in issue order. A record on an absent page is waited for as
any engine read (R167, log entry 56). -/
def execTaskRecordSubmit (id : Nat) (s : State) : Host.Outcome State Fault Refusal :=
  match s.job id with
  | none => .next s
  | some j =>
    match j.kind with
    | .task record q slot =>
      if s.jobs.any fun k => k.id < id && k.work = j.work && (match k.kind with | .task .. => true | _ => false) then
        .next s
      else
        if j.request.isSome then .next s
        else if j.refused then .next ((s.faultRecord 0 j.loc).dropJob id)
        else
        (match s.jobRead j record 128 with
          | .inr (_, .hole) => .fault .reservedAddress
          | .inr (t, .absent va) => .next (t.jobRequest j va)
          | .inr (t, .status _) => .next ((t.faultRecord 0 j.loc).dropJob id)
          | .inl (s, pts, v, _) =>
            let v := if j.user then v - bits v 319 256 * 2 ^ 256 + j.root.toNat * 2 ^ 256 else v
            let st := s.slotState q slot
            if st = 1 || st = 2 then .next ((s.faultRecord 0 j.loc).dropJob id)
            else
              let s := { s with slotRecords := Table.set 0 s.slotRecords (64 * q + slot) (BitVec.ofNat 1024 v) }
              .next ((s.appendRecord q slot pts).dropJob id))
    | .copy .. | .reloc .. | .msweep .. | .smap .. | .swb .. | .preq _ | .fampw _ | .tdep .. | .reshard .. | .coll .. =>
      .next s
/-- TDEP_DECREMENT (R356). -/
def execTdepDecrement (id : Nat) (s : State) : Host.Outcome State Fault Refusal :=
  match s.job id with
  | none => .next s
  | some j =>
    match j.kind with
    | .tdep h n =>
      let s' := if Table.get 0 s.depCounters h - n < -(2 ^ 31) then (s.faultRecord 0 j.loc).count
        else (s.releaseDep h j.pts).decrement h n
      .next (s'.dropJob id)
    | .copy .. | .reloc .. | .msweep .. | .smap .. | .swb .. | .preq _ | .fampw _ | .task .. | .reshard .. | .coll .. =>
      .next s
/-- TASK_DISPATCH (R197, R218): one dispatch decision, then the pre-emptions that a level-3 head asks for. -/
def execTaskDispatch (s : State) : Host.Outcome State Fault Refusal :=
  let s := match s.decision with
    | .resume v => s.resume v
    | .start q => s.startTask q
    | .wait => s
  .next (match s.asking with
    | some q => (s.victims q).foldl (fun (s : State) l => s.requestPreempt l) s
    | none => s)
/-- SAVED_INSTANCE_RESUME (R221), where the decision falls on that instance or its gang. -/
def execSavedInstanceResume (work : Nat) (s : State) : Host.Outcome State Fault Refusal :=
  .next (match s.decision with
    | .resume v => if (s.resumeGroup v).any fun u => u.work = work then s.resume v else s
    | .start _ | .wait => s)
/-- Cycles of 1 ms (R6, R18). -/
def State.msCycles (s : State) : Nat := s.mgmt.clocks[0] * 1000
/-- The head of a queue, or a Saved instance, is due for its next level (R198, R223). -/
def State.headAges (s : State) (q : Nat) : Bool :=
  match (s.queue q).entries with
  | [] => false
  | e :: _ =>
    match e.readySince with
    | some t => decide (e.aged < 3 ∧ t + (e.aged + 1) * s.msCycles ≤ s.cycle)
    | none => false
def State.savedAges (s : State) (v : Saved) : Bool :=
  decide (v.aged < 3 ∧ v.since + (v.aged + 1) * s.msCycles ≤ s.cycle)
/-- Change the head of a queue. -/
def State.setHead (s : State) (q : Nat) (f : QEntry → QEntry) : State :=
  let u := s.queue q
  match u.entries with
  | [] => s
  | e :: rest => s.setQueue q { u with entries := f e :: rest }
/-- EFFECTIVE_LEVEL_AGING (R198, R223). -/
def execEffectiveLevelAging (saved : Bool) (who : Nat) (s : State) : Host.Outcome State Fault Refusal :=
  .next (
    if saved then
      { s with saved := s.saved.map fun (v : Saved) =>
          if v.work = who && s.savedAges v then { v with aged := v.aged + 1 } else v }
    else if s.headAges who then s.setHead who fun e => { e with aged := e.aged + 1 }
    else s)
/-- Whether the record of a head says rightly that it is ready (R198). -/
def State.headNoted (s : State) (q : Nat) : Bool :=
  match (s.queue q).entries with
  | [] => true
  | e :: _ => e.readySince.isSome == (s.headReady q).isSome
/-- Note that a head has become ready now, or is ready no more (R198). -/
def State.noteHead (s : State) (q : Nat) : State :=
  s.setHead q fun e => { e with readySince := if (s.headReady q).isSome then some s.cycle else none, aged := 0 }

end Sys2Proof.Machine
end

