-- ==== Sys2Proof/Machine/Device.lean ====
section
/-! DEFINITION. Clock events, ends of waits, background repairs, the fault service core, host accesses, Chotis links,
Fliyn, reset (R7, R8, R18, R19, R23, R27, R81, R88, R91, R99 to R101, R159, R167, R170, R175, R176, R181, R185, R251 to
R264, R381). -/

namespace Sys2Proof.Machine

/-! Contexts (R88, R91, R381). -/

/-- ENGINE_WAIT_END (R381): the context is Ready again; a gang member has kept its core (R94). -/
def execEngineWaitEnd (loc : Fin 1024) (s : State) : Host.Outcome State Fault Refusal :=
  let l := loc.val
  let c := s.ctx l
  match c.status, c.woken with
  | .waiting _, some _ =>
    if c.stopping.isSome then .next s
    else if (s.core (coreOf l)).current = some (Fin.ofNat 4 l) then .next (s.setCtx l { c with status := .running })
    else .next (s.readyCore (coreOf l))
  | _, _ => .next s
/-- M0_LOAD_RETURN: an outstanding M0 access of the acting context whose cycle has come writes its registers, and with it
every result that is due no later, in the order of R73 (R71, R175). -/
def execM0LoadReturn (n : Nat) (s : State) : Host.Outcome State Fault Refusal :=
  match s.me.m0[n]? with
  | none => .next s
  | some o => .next (if o.due ≤ s.cycle then s.modMe fun c => c.arrive o.due else s)
/-- SPAWNED_CONTEXT_READY (R91). -/
def execSpawnedContextReady (loc : Fin 1024) (s : State) : Host.Outcome State Fault Refusal :=
  let l := loc.val
  match (s.ctx l).startAt with
  | none => .next s
  | some t =>
    if t ≤ s.cycle then .next (s.readyCore (coreOf l)) else .next s

/-! Time (R18, R19, R99 to R101, R176, R181, R257). -/

/-- A link in aligned mode (R255). -/
def Link.aligns (l : Link) : Bool := l.up && l.align
/-- Post the record of a lost alignment (R257), of the tower of the time root's link or tower 0 (R253). -/
def State.loseAlignment (s : State) (link : Nat) : State :=
  { s.post 0x0041 2 (link / 3) link with aligned := false, alignLost := true, markersGood := 0 }
/-- The clock of a tower as the mode, the setting of the power cap and the thermal state give it (R18, R19, R261). -/
def Mgmt.clockOf (m : Mgmt) (det : Bool) (tower : Nat) : Nat :=
  Nat.min (if det then 1000 else m.setting) (m.thermal[tower]?.getD 1200)
/-- Set every clock so. Below 1.0 GHz a tower forces the exit from deterministic mode (R19). -/
def State.setClocks (s : State) (det : Bool) : State :=
  let c := Vector.ofFn fun t : Fin 4 => s.mgmt.clockOf det t.val
  { s with mgmt := { s.mgmt with
      clocks := c, forcedExit := s.mgmt.forcedExit || (det && c.toList.any (· < 1000)) } }
/-- A step boundary (R99): the counter becomes `n`, LOGT takes effect, deterministic mode is entered or left (R19,
R101), every line's WID is cleared (R181), waits on the step end (R100). A tower that a thermal limit holds below 1.0 GHz
stays there when the mode is entered, and the next boundary leaves it (R19, log entry 70). -/
def State.stepBoundary (s : State) (n : Word) : State :=
  let s := { s with
    timeStep := n
    logT := s.logTNext
    nextStep := s.cycle + 2 ^ s.logTNext.toNat
    lastStep := s.cycle
    lines := (s.lines.map fun (e : Nat × LineData) => (e.1, { e.2 with wid := 0 })).filter fun e =>
      e.2 ≠ LineData.clear }
  let s :=
    if s.mgmt.forcedExit then
      let t := s.post 0x0010 0 0 0
      { t with detReq := false, detAct := false, mgmt := { t.mgmt with forcedExit := false } }
    else if s.detReq && !s.detAct then { s with detAct := true }.setClocks true
    else if !s.detReq && s.detAct then { s with detAct := false }
    else s
  s.wake fun _ c =>
    match c.status with
    | .waiting (.timeStep m) => if m ≤ s.timeStep then some .completes else none
    | _ => none
/-- Nanoseconds in cycles of tower 0 (log entry 6). -/
def State.nsCycles (s : State) (ns : Nat) : Nat := ns * s.mgmt.clocks[0] / 1000
/-- The least MODULE number that an aligned link leads to (R257, log entry 21). -/
def Link.leads (l : Link) : Nat := Nat.min l.partner.toNat (Config.beyond l.partner.toNat)
/-- The link toward the root: the aligned one that leads to the least MODULE number, below this module's own (R257, log entry
21). -/
def State.rootLink (s : State) : Option (Fin 12) :=
  (List.range 12).foldl (fun (b : Option (Fin 12)) i =>
    let l : Fin 12 := Fin.ofNat 12 i
    if !(s.link l).aligns || s.module.toNat ≤ (s.link l).leads then b
    else
      match b with
      | none => some l
      | some k => if (s.link l).leads < (s.link k).leads then some l else b) none
/-- What a boundary says of the markers (R257): the root is aligned with itself; elsewhere two consecutive markers that
should have come by now and have not end the alignment, also where no aligned link is left to bring one. -/
def State.checkMarkers (s : State) : State :=
  if s.root then { s with aligned := true }
  else
    match s.rootLink with
    | none => if s.aligned && s.markerLast.toNat + 3 ≤ s.timeStep.toNat then s.loseAlignment 0 else s
    | some l =>
      let late := s.nsCycles (s.link l).latency / 2 ^ s.logT.toNat
      if s.aligned && s.markerLast.toNat + 3 + late ≤ s.timeStep.toNat then s.loseAlignment l.val else s
/-- TIME_STEP_BOUNDARY (R99). -/
def execTimeStepBoundary (s : State) : Host.Outcome State Fault Refusal :=
  .next (if s.nextStep ≤ s.cycle then (s.stepBoundary (s.timeStep + 1)).checkMarkers else s)
/-- The local boundary of step `n`: the last one, one before it, or the next one. A marker is under way for a whole step
or more where the latency of its link is (R257). -/
def State.boundaryOf (s : State) (n : Word) : Option Nat :=
  let ago := (s.timeStep - n).toNat * 2 ^ s.logT.toNat
  if ago ≤ s.lastStep then some (s.lastStep - ago) else if n = s.timeStep + 1 then some s.nextStep else none
/-- A marker that puts the local boundary of step `n` at `b` agrees with the local one within one cycle (R257). -/
def State.markerNear (s : State) (n : Word) (at_ : Nat) : Bool :=
  match s.boundaryOf n with
  | some b => decide (b ≤ at_ + 1 ∧ at_ ≤ b + 1)
  | none => false
/-- The module sets its own boundary by a marker that puts the boundary of step `n` at the cycle `at_` (R257): where the
two agree within one cycle the last boundary moves with it, else the step of now follows from it. -/
def State.adoptMarker (s : State) (n : Word) (at_ : Nat) : State :=
  let len := 2 ^ s.logT.toNat
  let k := if s.markerNear n at_ then (s.timeStep - n).toNat else (s.cycle - at_) / len
  let k := if n = s.timeStep + 1 then 0 else k
  let t := if s.timeStep = n + BitVec.ofNat 64 k then s else s.stepBoundary (n + BitVec.ofNat 64 k)
  { t with nextStep := at_ + k * len + 2 ^ t.logT.toNat, lastStep := at_ + k * len }
/-- STEP_MARKER_RECEIVE (R257): a marker over the link toward the root, by a sender of equal LOGT. It stands for the
boundary at its arrival minus the latency of the link. That it is forwarded away from the root changes nothing here: markers
take a reserved slot of their own (log entry 21). -/
def execStepMarkerReceive (link : Fin 12) (marker : StepMarker) (crcOk : Bool) (s : State) :
    Host.Outcome State Fault Refusal :=
  let stepNo := marker.stepNo
  let at_ := s.cycle - s.nsCycles (s.link link).latency
  let near := s.markerNear stepNo at_
  .next (
    if !crcOk || s.root || s.rootLink ≠ some link then s
    else if marker.logT ≠ s.logT then (if s.aligned then s.loseAlignment link.val else s)
    else if s.aligned && !near then s.loseAlignment link.val
    else
      let good := if !near then 0 else if stepNo = s.markerLast + 1 then s.markersGood + 1 else 1
      let s := { s.adoptMarker stepNo at_ with markerLast := stepNo, markersGood := good }
      if s.aligned || (s.alignLost && good < 16) then s else { s with aligned := true, alignLost := false })
/-- PTS_TICK (R176): the timestamp of every Running context rises by 1. -/
def execPtsTick (s : State) : Host.Outcome State Fault Refusal :=
  .next (if s.ptsTicks < s.cycle / 256 then
    s.places.foldl (fun (s : State) l =>
      if (s.ctx l).status = .running then s.modCtx l fun c => { c with pts := c.pts + 1 } else s)
      { s with ptsTicks := s.ptsTicks + 1 }
  else s)
/-- L1_COPY_AGE_EXPIRY (R176): every shared copy of that age goes. -/
def execL1CopyAgeExpiry (s : State) : Host.Outcome State Fault Refusal :=
  .next { s with l1 := s.l1.filter fun k => k.excl || s.cycle < k.filled + Config.l1Age }
/-- HOME_TICK (R159): the 1 microsecond tick. -/
def execHomeTick (s : State) : Host.Outcome State Fault Refusal :=
  .next (if s.nextTick ≤ s.cycle then
    { s with homeTick := s.homeTick + 1, nextTick := s.nextTick + s.mgmt.clocks[0] } else s)

/-! The stacked layers (R21, R23). -/

/-- CELL_ERROR_WRITE_BACK (R23): unless the line has been written since. -/
def execCellErrorWriteBack (line : Nat) (s : State) : Host.Outcome State Fault Refusal :=
  .next (if s.corrections.contains line then
    { s with
      corrections := s.corrections.filter fun l => l ≠ line
      faults := s.faults.filter fun f => !(f.1 == line && f.2.isCell && !f.2.isDouble) }
  else s)
/-- The scrubber reads one line of a bank (R23). -/
def State.scrub (s : State) (line : Nat) : State :=
  let pa := 64 * line
  if inBank pa && pa % 0x400000 < bankSize then (s.sramRead pa true).1 else s
/-- SCRUB_LINE (R23). -/
def execScrubLine (line : Nat) (s : State) : Host.Outcome State Fault Refusal := .next (s.scrub line)
/-- Lines of a bank and of all banks. -/
def bankLines : Nat := bankSize / 64
def scrubTotal : Nat := 4096 * bankLines
/-- The `n`-th line of a scrubbing round. -/
def scrubLineOf (n : Nat) : Nat := scratchPa (n / bankLines / 64) (n / bankLines % 64) (n % bankLines * 64) / 64
/-- Cycles of 24 hours (R23, log entry 6). -/
def State.dayCycles (s : State) : Nat := 86400 * 1000000 * s.mgmt.clocks[0]
/-- The scrubber's own step (R23): it reads the next line, or begins a new round when 24 hours have gone by. -/
def State.scrubStep (s : State) : State :=
  if s.scrubNext < scrubTotal then { s.scrub (scrubLineOf s.scrubNext) with scrubNext := s.scrubNext + 1 }
  else if s.scrubStart + s.dayCycles ≤ s.cycle then { s with scrubNext := 0, scrubStart := s.cycle }
  else s

/-! The fault service core (R167, R170, R333). -/

/-- A job whose page request has been answered: a PREQ arrives, another job goes on; a collective keeps the refused
pages (R167, R333). -/
def State.answerJob (s : State) (r : PageRequest) (resident : Bool) (j : Job) : State :=
  match j.kind with
  | .preq _ => ((if resident then s else s.faultRecord 0 j.loc).arriveOnce j).dropJob j.id
  | .coll .. => s.putJob { j with
      request := none, refused := !resident
      done := if resident then j.done else j.done ++ [r.va.toNat / 4096] }
  | .copy .. | .reloc .. | .msweep .. | .smap .. | .swb .. | .fampw _ | .task .. | .tdep .. | .reshard .. =>
    s.putJob { j with request := none, refused := !resident }
/-- PAGE_REQUEST_OUTCOME (R167): the answer to the request at position `n`. Where the page is made present, system
software has written the entry `entry` at `entryAt`. -/
def execPageRequestOutcome (n : Nat) (resident : Bool) (entryAt : Nat) (entry : Word) (s : State) :
    Host.Outcome State Fault Refusal :=
  match s.requests[n]? with
  | none => .next s
  | some r =>
    let s := { s with requests := s.requests.filter fun (q : PageRequest) => q.id ≠ r.id }
    let s := if resident && !s.noPa entryAt then (s.homeWrite 0 entryAt 8 entry.toNat none).1 else s
    let s := match r.job.bind s.job with
      | some j => if j.request = some r.id then s.answerJob r resident j else s
      | none => s
    .next (match r.loc with
      | none => s
      | some l =>
        s.wake fun m c =>
          if m = l && c.status = .waiting (.page r.va) then some (if resident then .completes else .refused) else none)
/-- Some page of a region lies in the physical range [base, base + size). -/
def State.regionMeets (s : State) (root : Word) (base size : Nat) (r : MapRegion) : Bool :=
  (List.range (r.len / 4096 + 2)).any fun i =>
    let va := r.base.toNat / 4096 * 4096 + 4096 * i
    let x := s.translate root (BitVec.ofNat 64 va) .read false
    decide (va < r.base.toNat + r.len) && x.st = .ok && decide (base < x.pa + 4096 ∧ x.pa < base + size)
/-- PAGE_RELEASE_REQUEST (R170), for the page at a physical base: its lines are unpinned and leave the slices and the L1s,
regions that cover it are stale; no instruction cache and no host cache holds one any more. An expected read count stays with
its line, of which R170 says nothing (log entry 129). -/
def execPageReleaseRequest (base size : Nat) (s : State) : Host.Outcome State Fault Refusal :=
  let mark (root : Word) (l : List MapRegion) : List MapRegion :=
    l.map fun r => if s.regionMeets root base size r then { r with stale := true } else r
  let away (line : Nat) : Bool := !decide (base < 64 * line + 64 ∧ 64 * line < base + size)
  let s' := { s with
    l1 := s.l1.filter fun k => away k.line
    l2 := s.l2.filter fun k => away k.line
    icache := s.icache.filter fun k => away k.2
    hostLines := s.hostLines.filter away
    saved := s.saved.map fun (v : Saved) => { v with regions := mark v.root v.regions } }
  .next (s'.places.foldl (fun (t : State) l =>
    if (t.ctx l).regions = [] then t else t.modCtx l fun c => { c with regions := mark c.ptroot c.regions }) s')

/-! The host (R185, R252). -/

/-- The host has taken the record at a place of its event ring when it has written the line (R262, log entry 77). -/
def Mgmt.emptied (m : Mgmt) (pa : Nat) : Mgmt :=
  { m with ringHeld := m.ringHeld.filter fun i => 0x8000000000000 + m.ringBase.toNat + 64 * i ≠ pa }
/-- A write of the masked bytes of a line by the host: above every lease of the line (R185). -/
def State.hostWrite (s : State) (pa data mask : Nat) : State :=
  let pick := (List.range 64).foldr (fun i acc => (if mask / 2 ^ i % 2 = 1 then 255 else 0) + 256 * acc) 0
  let new := mergeBits (BitVec.ofNat 512 pick) (BitVec.ofNat 512 (loadBytes s.mem pa 64)) (BitVec.ofNat 512 data)
  ({ s with mgmt := s.mgmt.emptied pa }.homeWrite 0 pa 64 new.toNat none (BitVec.ofNat 64 mask)).1
/-- HOST_SNOOP_WRITE (R185): a line of host memory. -/
def execHostSnoopWrite (line data mask : Nat) (s : State) : Host.Outcome State Fault Refusal :=
  .next (if 0x8000000000000 ≤ 64 * line ∧ 64 * line < 0x10000000000000 then s.hostWrite (64 * line) data mask else s)
/-- A line of a granule of HBM that the host reaches through CXL.mem (R249, R252). -/
def State.hdmLine (s : State) (line : Nat) : Bool :=
  s.mgmt.cxl && inHbm (64 * line) && s.mgmt.hdm.getLsbD (64 * line / 2 ^ 30)
/-- What the host finds when it reads such a line: its bytes and its poison (R252). -/
def State.hostRead (s : State) (line : Nat) : Nat × Bool := (loadBytes s.mem (64 * line) 64, (s.line (64 * line)).poison)
/-- HOST_CXL_MEM_WRITE (R252): an access of the host to a line of its granules, after which it may cache the line. A read
recalls the line as any access does (R175) and changes nothing else here. -/
def execHostCxlMemWrite (line : Nat) (op : HostMemOp) (keeps : Bool) (s : State) : Host.Outcome State Fault Refusal :=
  let keep (t : State) : State :=
    { t with hostLines := (t.hostLines.filter fun l => l ≠ line) ++ if keeps then [line] else [] }
  .next (if s.hdmLine line then
    match op with
    | .write data mask => keep (s.hostWrite (64 * line) data mask)
    | .read => keep (s.recall line)
  else s)

/-! Chotis links (R254 to R257). -/

/-- This module is the root of aligned mode: no aligned link leads to a lower MODULE number (R257, log entry 21). A root
that loses its last aligned link is aligned no more. -/
def State.findRoot (s : State) : State :=
  let ls := s.links.toList.filter Link.aligns
  let root := !ls.isEmpty && ls.all fun l => decide (s.module.toNat ≤ l.leads)
  { s with root := root, aligned := s.aligned && (!s.root || root) }
def State.setLink (s : State) (i : Fin 12) (l : Link) : State := ({ s with links := s.links.set i l }).findRoot
/-- Cycles of 1 s. -/
def State.secondCycles (s : State) : Nat := s.mgmt.clocks[0] * 1000000
/-- A link retrains; at the third time within 1 s it is lost, and record 0x0040 names it (R254, R256). -/
def State.retrainLink (s : State) (i : Fin 12) : State :=
  let l := s.link i
  let ts := (l.retrains.filter fun t => decide (s.cycle < t + s.secondCycles)) ++ [s.cycle]
  let l := { l with up := false, naking := false, fails := 0, naks := 0, retrains := ts }
  if 3 ≤ ts.length then (s.setLink i { l with training := false, lost := true }).post 0x0040 2 (i.val / 3) i.val
  else s.setLink i { l with training := true }
/-- A write of RETRAIN starts training, unless the link is up (R255, R256). -/
def State.writeRetrain (s : State) (i : Fin 12) (data : Word) : State :=
  if data.getLsbD 63 && !(s.link i).up then s.setLink i { s.link i with training := true } else s
/-- CHOTIS_RETRAIN_WRITE (R256). -/
def execChotisRetrainWrite (link : Fin 12) (data : Word) (s : State) : Host.Outcome State Fault Refusal :=
  .next (s.writeRetrain link data)
/-- The status word of a link (R255). -/
def Link.word (l : Link) : Word :=
  BitVec.ofNat 64 (b2n l.up + 2 * b2n l.align + 4 * b2n l.plane + 8 * b2n l.lost + l.ver.toNat * 2 ^ 8 +
    l.retry.toNat * 2 ^ 16 + l.partner.toNat * 2 ^ 32)
/-- LINK_STATUS_READ (R255): the read returns the status word to the host and clears RETRY. -/
def execLinkStatusRead (link : Fin 12) (s : State) : Host.Outcome State Fault Refusal :=
  .next { s with links := s.links.set link { s.link link with retry := 0 } }
/-- A replay counts in RETRY, saturating (R255). -/
def Link.replayed (l : Link) : Link := { l with retry := if l.retry = BitVec.allOnes 16 then l.retry else l.retry + 1 }
/-- The fields of a flit (R253). -/
def flitHeader (f : BitVec 2048) : Word := f.extractLsb' 0 64
def flitSeq (f : BitVec 2048) : BitVec 12 := f.extractLsb' 0 12
def flitAck (f : BitVec 2048) : BitVec 12 := f.extractLsb' 12 12
def flitNak (f : BitVec 2048) : Bool := f.getLsbD 24
def flitKind (f : BitVec 2048) : Nat := bits (flitHeader f).toNat 28 25
/-- The CRC-64 of a flit passes (R253, log entry 75). -/
def flitOk (f : BitVec 2048) : Bool := f.extractLsb' 1984 64 == Config.crc64 (f.toNat % 2 ^ 1984)
/-- The partner has received every flit up to ACK in order, and they leave the replay buffer (R254). -/
def Link.acked (l : Link) (ack : BitVec 12) : Link :=
  let left := (l.sendSeq - (ack + 1)).toNat
  { l with
    unacked := if left ≤ l.unacked then left else l.unacked
    lastAck := ack, naks := if ack = l.lastAck then l.naks else 0 }
/-- A NAK is a replay of this end from ACK + 1; one that names the same flit as the one before says that its replay has
failed (R254, log entry 94). -/
def Link.nakked (l : Link) : Link := { l.replayed with naks := l.naks + 1 }
/-- Eight replays of one flit of this end have failed (R254). -/
def Link.worn (l : Link) : Bool := decide (9 ≤ l.naks)
/-- FLIT_RECEIVE (R253, R254): step markers take no part in replay. Of a flit that is accepted, ACK frees places of the
replay buffer, and a NAK is a replay of this end from ACK + 1. A flit out of order or with a bad CRC makes this end drop and
return NAK; while it does, a flit that is not the replay asked for is only dropped. The eighth replay that fails in a row,
of this end or of the partner, retrains the link. -/
def execFlitReceive (link : Fin 12) (flit : BitVec 2048) (replay : Bool) (s : State) : Host.Outcome State Fault Refusal :=
  let l := s.link link
  let ok := flitOk flit
  if !l.up then .next s
  else if ok && flitKind flit = 3 then .next s
  else
    if ok && flitSeq flit = l.nextSeq then
      let a := { l.acked (flitAck flit) with nextSeq := l.nextSeq + 1, naking := false, fails := 0 }
      let a := if flitNak flit then a.nakked else a
      let s := s.setLink link a
      let s := if 5 ≤ flitKind flit then s.count else s
      .next (if a.worn then s.retrainLink link else s)
    else if l.naking && !replay then .next (s.setLink link l)
    else
      let fails := if l.naking then l.fails + 1 else 0
      let l := { l.replayed with naking := true, fails := fails }
      if 8 ≤ fails then .next ((s.setLink link l).retrainLink link) else .next (s.setLink link l)
/-- The one-way latency of a link from round trips in ns, half of one; none unless 64 or more repeat within 4 ns (R257). -/
def latencyOf (trips : List Nat) : Option Nat :=
  let lo := trips.foldl Nat.min (trips.headD 0)
  let hi := trips.foldl Nat.max 0
  if 64 ≤ trips.length && hi - lo ≤ 8 then some (lo / 2) else none
/-- LINK_TRAINING_COMPLETE (R255, R256): both ends adopt the lower version and the common capabilities; without a steady
latency ALIGN reads 0 (R257). The training of a link that was up is one that its partner began: it counts as a retraining
(R254, log entry 94). -/
def execLinkTrainingComplete (link : Fin 12) (ok : Bool) (version : Byte) (caps : LinkCaps) (partner : BitVec 12)
    (trips : List Nat) (s : State) : Host.Outcome State Fault Refusal :=
  let s := if (s.link link).up then s.retrainLink link else s
  let l := s.link link
  if !l.training then .next s
  else if !ok then .next (s.setLink link { l with training := false })
  else
    let t := s.setLink link { l with
      up := true, training := false, lost := false, align := caps.align && (latencyOf trips).isSome, plane := caps.plane
      ver := if version < 2 then version else 2
      partner := partner, nextSeq := 0, naking := false, fails := 0, sendSeq := 0, unacked := 0
      lastAck := BitVec.allOnes 12, naks := 0
      latency := (latencyOf trips).getD 0
      retrains := if l.lost then [] else l.retrains }
    .next (if l.lost then t.post 0x0040 0 (link.val / 3) link.val else t)

/-! Registers in BAR0 (R7, R191, R192, R251). -/

/-- Replace `n` bytes at byte `off` of a number. -/
def putBytes (old off n v : Nat) : Nat :=
  old - old / 256 ^ off % 256 ^ n * 256 ^ off + v % 256 ^ n * 256 ^ off
/-- Write bytes into the launch record slots of a queue. -/
def State.writeSlots (s : State) (q off n v : Nat) : State :=
  (List.range (n / 128 + 2)).foldl (fun (s : State) i =>
    let k := off / 128 + i
    let lo := Nat.max off (128 * k)
    let hi := Nat.min (off + n) (128 * k + 128)
    if lo < hi && k < 64 then
      let old := (Table.get 0 s.slotRecords (64 * q + k)).toNat
      let new := BitVec.ofNat 1024 (putBytes old (lo - 128 * k) (hi - lo) (v / 256 ^ (lo - off)))
      { s with slotRecords := Table.set 0 s.slotRecords (64 * q + k) new }
    else s) s
/-- A write inside the window of a queue (R191, R192); slot status words ignore it. -/
def State.writeWindow (s : State) (q off n v : Nat) : State :=
  if off + n ≤ 0x2000 then s.writeSlots q off n v
  else if off < 0x2240 && 0x2200 < off + n then
    s.doorbell q n (off = 0x2200 && n = 64) (v % 256) (v / 256 % 256)
  else if 0x2240 ≤ off && off + n ≤ 0x2248 then
    let u := s.queue q
    s.writeQueueControl q (BitVec.ofNat 64 (putBytes (b2n u.en * 256 + u.level.val) (off - 0x2240) n v))
  else s
/-- Event ring control (R251): a ring that is set up anew is empty. -/
def State.writeRing (s : State) (off n v : Nat) : State :=
  let w := putBytes (s.mgmt.ringBase.toNat + s.mgmt.ringSize.toNat * 2 ^ 64) off n v
  { s with mgmt := { s.mgmt with ringBase := BitVec.ofNat 64 w, ringSize := BitVec.ofNat 8 (w / 2 ^ 64), ringNext := 0
                                 ringHeld := [] } }
/-- A write of `n` bytes at an offset of BAR0; offsets that R251 does not name ignore it. The mailbox takes commands
that the manual leaves to Chanter (log entry 22). -/
def State.writeBar (s : State) (off n v : Nat) : State :=
  if n = 0 then s
  else if 0x1000 ≤ off && off + n ≤ 0x1040 then s.writeRing (off - 0x1000) n v
  else if 0x400000 ≤ off && off + n ≤ 0x500000 then
    let q := (off - 0x400000) / 0x4000
    if (off - 0x400000) % 0x4000 + n ≤ 0x4000 then s.writeWindow q ((off - 0x400000) % 0x4000) n v else s
  else if 0x500000 ≤ off && off + n ≤ 0x500008 then s.writePreempt (BitVec.ofNat 64 (putBytes 0 (off - 0x500000) n v))
  else if 0x510000 ≤ off && off + n ≤ 0x510060 && (off - 0x510000) % 8 + n ≤ 8 then
    s.writeRetrain (Fin.ofNat 12 ((off - 0x510000) / 8)) (BitVec.ofNat 64 (putBytes 0 (off % 8) n v))
  else s
/-- One byte of BAR0 as the host reads it (R251): the ring control, launch record slots, slot status words and control words
of the queue windows (R191), the link status words; every other offset reads zero. The mailbox is Chanter's (log entry 22).
A read of a link status word also clears RETRY (execLinkStatusRead). -/
def State.barByte (s : State) (a : Nat) : Nat :=
  let byte (w off : Nat) : Nat := w / 256 ^ off % 256
  let q := (a - 0x400000) / 0x4000
  let o := (a - 0x400000) % 0x4000
  if 0x1000 ≤ a && a < 0x1040 then byte (s.mgmt.ringBase.toNat + s.mgmt.ringSize.toNat * 2 ^ 64) (a - 0x1000)
  else if 0x400000 ≤ a && a < 0x500000 then
    if o < 0x2000 then byte (Table.get 0 s.slotRecords (64 * q + o / 128)).toNat (o % 128)
    else if o < 0x2200 then byte (Table.get 0 s.slotStatus (64 * q + (o - 0x2000) / 8)).toNat (o % 8)
    else if 0x2240 ≤ o && o < 0x2248 then byte (b2n (s.queue q).en * 256 + (s.queue q).level.val) (o % 8)
    else 0
  else if 0x510000 ≤ a && a < 0x510060 then byte (s.link (Fin.ofNat 12 ((a - 0x510000) / 8))).word.toNat (a % 8)
  else 0
/-- `n` bytes of BAR0 as the host reads them (R251). -/
def State.readBar (s : State) (off n : Nat) : Nat :=
  (List.range n).foldr (fun i acc => s.barByte (off + i) + 256 * acc) 0
/-- REGISTER_WRITE (R7, R251). -/
def execRegisterWrite (offset bytes data : Nat) (s : State) : Host.Outcome State Fault Refusal :=
  .next (s.writeBar offset bytes data)

/-! Fliyn (R27, R259 to R264). -/

/-- Throttle and trip points in thousandths of a degree (R261). -/
def throttlePoint : DieClass → Int
  | .compute | .service => 100000
  | .sram => 95000
  | .hbm => 90000
def tripPoint : DieClass → Int
  | .compute | .service => 115000
  | .sram => 110000
  | .hbm => 105000
/-- Temperature sensors of a die class in a tower (R259), and of a tower. -/
def sensorsOf : DieClass → Nat
  | .compute => 4
  | .service => 2
  | .sram => 1
  | .hbm => 2
def towerSensors : Nat := 9
def dieCode : DieClass → Nat
  | .compute => 0 | .service => 1 | .sram => 2 | .hbm => 3
def sensorId (r : SensorReading) : SensorId := { tower := r.tower.val, die := r.die, index := r.index }
/-- The readings of the sensors that the towers have, one each (R259). -/
def sampleReadings (x : Sample) : List SensorReading :=
  x.temps.foldl (fun l r =>
    if r.index < sensorsOf r.die && !l.any (fun q => sensorId q = sensorId r) then l ++ [r] else l) []
/-- The power of some rails in mW (R259). -/
def railPower (l : List RailReading) : Nat := l.foldl (fun p r => p + r.milliV * r.milliA / 1000) 0
def towerPower (x : Sample) (t : Nat) : Nat := railPower (x.rails.filter fun r => r.tower.val = t)
def modulePower (x : Sample) : Nat := railPower x.rails
/-- The die of a sensor among those of its class: each HBM stack is a die of its own. -/
def SensorId.stack (i : SensorId) : Nat := match i.die with | .hbm => i.index | .compute | .service | .sram => 0
/-- The power estimate of a die's temperature (R259, log entry 76). -/
def estimate (x : Sample) (i : SensorId) : Int :=
  Config.thermal i.tower (dieCode i.die) i.stack
    (railPower (x.rails.filter fun r => r.tower.val = i.tower && r.die = i.die && r.index = i.stack)) x.coolant
/-- Samples of 2 s (R259, R260). -/
def stillSamples : Nat := 2000
/-- A sample enters the histories: of each sensor how long its value has not changed, of each tower its power. -/
def Mgmt.observe (m : Mgmt) (x : Sample) : Mgmt :=
  let rs := (sampleReadings x)
  { m with
    still := (m.still.filter fun e => !rs.any fun r => sensorId r = e.1) ++ rs.map fun r =>
      (sensorId r, r.milliC, match m.still.find? fun e => e.1 = sensorId r with
        | some e => if e.2.1 = r.milliC then e.2.2 + 1 else 0
        | none => 0)
    power := Vector.ofFn fun t : Fin 4 => (towerPower x t.val :: m.power[t]).take (stillSamples + 1) }
/-- The power of a tower has changed by more than 10 % from its value at the start of the last 2 s (R260, log entry 78). -/
def powerMoved (l : List Nat) : Bool :=
  match l[stillSamples]? with
  | none => false
  | some p => l.any fun q => decide (p < 10 * (if p ≤ q then q - p else p - q))
/-- The first condition under which a sensor fails (R260). -/
def Mgmt.sensorFailure (m : Mgmt) (x : Sample) (r : SensorReading) : Option Nat :=
  let i := sensorId r
  if r.milliC < -40000 || 150000 < r.milliC then some 1
  else if m.still.any (fun e => e.1 = i && stillSamples ≤ e.2.2) && powerMoved (m.power[r.tower]) then some 2
  else if 15000 < (r.milliC - estimate x i).natAbs then some 3
  else none
/-- A sensor that fails at this sample is dropped, logged and counted (R260). -/
def State.checkSensor (x : Sample) (s : State) (r : SensorReading) : State :=
  if s.mgmt.failedSensors.contains (sensorId r) then s
  else
    match s.mgmt.sensorFailure x r with
    | none => s
    | some k =>
      let s := (s.post 0x0020 2 r.tower.val k).count
      { s with mgmt := { s.mgmt with failedSensors := s.mgmt.failedSensors ++ [sensorId r] } }
/-- Failed sensors of a tower. -/
def State.failedIn (s : State) (tower : Nat) : Nat := s.mgmt.failedSensors.countP fun i => i.tower = tower
/-- What governs a tower: the readings of its working sensors, and the estimates of the dies of failed ones (R260). -/
def State.governing (s : State) (tower : Nat) (x : Sample) : List (DieClass × Int) :=
  (((sampleReadings x).filter fun r => r.tower.val = tower && !s.mgmt.failedSensors.contains (sensorId r)).map fun r =>
    (r.die, r.milliC)) ++
  (s.mgmt.failedSensors.filter fun i => i.tower = tower).map fun i => (i.die, estimate x i)
/-- By how much the limits of a tower are lowered (R260). -/
def State.lowered (s : State) (tower : Nat) : Int := if s.failedIn tower = 0 then 0 else 5000
/-- The thermal limit of a tower's clock after a sample in MHz (R260, R261); a sample without a reading leaves it. -/
def State.nextLimit (s : State) (tower : Nat) (x : Sample) : Nat :=
  let limit := (s.mgmt.thermal[tower]?).getD 1200
  let now := (s.mgmt.clocks[tower]?).getD 1200
  let g := s.governing tower x
  let low := s.lowered tower
  if towerSensors ≤ s.failedIn tower then 600
  else if g.any fun r => decide (throttlePoint r.1 - low < r.2) then Nat.max 600 (now - 25)
  else if g ≠ [] && g.all fun r => decide (r.2 ≤ throttlePoint r.1 - low - 3000) then Nat.min 1200 (limit + 25)
  else limit
/-- The setting that keeps the module at or under 2000 W (R18, log entry 72): 25 MHz lower at a sample above, else 25 MHz
higher. -/
def Mgmt.nextSetting (m : Mgmt) (x : Sample) : Nat :=
  if 2000000 < modulePower x then Nat.max 600 (m.setting - 25) else Nat.min 1200 (m.setting + 25)
/-- A reading of a tower lies at or above its trip point (R261). -/
def State.tripsIn (s : State) (x : Sample) (t : Nat) : Bool :=
  (s.governing t x).any fun r => decide (tripPoint r.1 - s.lowered t ≤ r.2)
/-- A trip stops every tower clock, posts the record of the tower and reports a fatal error (R261). -/
def State.trip (s : State) (tower : Nat) : State :=
  let t := s.post 0x0021 3 tower 0
  { t with mgmt := { t.mgmt with tripped := true, fatal := t.mgmt.fatal + 1 } }
/-- SENSOR_SAMPLE (R18, R259 to R261). -/
def execSensorSample (sample : Sample) (s : State) : Host.Outcome State Fault Refusal :=
  let s := (sampleReadings sample).foldl (State.checkSensor sample) { s with mgmt := s.mgmt.observe sample }
  let s := { s with mgmt := { s.mgmt with
    thermal := Vector.ofFn fun t : Fin 4 => s.nextLimit t.val sample
    setting := s.mgmt.nextSetting sample } }.setClocks s.detAct
  .next (((List.range 4).filter (s.tripsIn sample)).foldl State.trip s)
/-- A retired bank returns to service (R27); its contents were lost at its retirement (R26), so each byte is free (log
entry 14). -/
def State.returnBank (s : State) (k : Nat) : State :=
  if s.retired.contains k then
    { s with
      retired := s.retired.filter fun b => b ≠ k
      mem := storeBytes s.mem (scratchPa (k / 64) (k % 64) 0) bankSize (freeBytesFrom s.freeCount bankSize)
      freeCount := s.freeCount + bankSize }
  else s
/-- MANAGEMENT_SERVICE_COMMAND (R27, R83). -/
def execManagementServiceCommand (cmd : MgmtCommand) (s : State) : Host.Outcome State Fault Refusal :=
  .next (match cmd with
    | .clearRetired k => s.returnBank k
    | .setModule n => ({ s with module := n }).findRoot)
/-- The firmware slot that is not active. -/
def Mgmt.inactive (m : Mgmt) : Fin 2 := m.fwActive + 1
/-- The security version of an image (R263). -/
def imageVersion : SignedImage → Nat
  | .firmware v | .identity v => v
/-- FIRMWARE_UPDATE (R263): a verified image goes to the inactive slot and is active at the next reset; a device identity
is accepted under the same condition. An image that fails is refused and logged. -/
def execFirmwareUpdate (signaturesOk : Bool) (image : SignedImage) (s : State) : Host.Outcome State Fault Refusal :=
  let m := s.mgmt
  .next (if !signaturesOk || imageVersion image < m.rollback then s.post 0x0050 2 0 (imageVersion image)
    else
      match image with
      | .identity v => { s with mgmt := { m with identity := v } }
      | .firmware v => { s with mgmt := { m with fwVersions := m.fwVersions.set m.inactive v, fwNext := m.inactive } })
/-- ATTESTATION_REQUEST (R264): the active firmware, the loaded microprograms, the fuses and the retired banks. -/
def execAttestationRequest (s : State) : Host.Outcome State Fault Refusal :=
  let m := s.mgmt
  .next { s with mgmt := { m with attested := [m.fwVersions[m.fwActive]] ++ s.images.map (·.2) ++ [Config.fuses] ++ s.retired } }
/-- The image of a slot is accepted at boot: it verifies, which is free, and its version is not below the anti-rollback
counter (R263). -/
def Mgmt.accepts (m : Mgmt) (slot : Fin 2) (verifies : Bool) : Bool := verifies && m.rollback ≤ m.fwVersions[slot]
/-- What stays over a reset: the persistent log with the copies that are on their way, and the firmware slots; `slot` is
the active one (R262, R263). -/
def Mgmt.kept (m : Mgmt) (slot : Fin 2) : Mgmt :=
  { Mgmt.reset with
    log := m.log, logSeq := m.logSeq, ring := m.ring, fwVersions := m.fwVersions, fwActive := slot, fwNext := slot
    rollback := m.rollback, identity := m.identity, cxl := m.cxl, hdm := m.hdm }
/-- A firmware slot boots; then the anti-rollback counter advances (R263). -/
def State.bootsSlot (s : State) (slot : Fin 2) : State :=
  let m := s.mgmt
  { s with mgmt := { m with
      fwActive := slot, fwNext := slot, rollback := Nat.max m.rollback m.fwVersions[slot], noBoot := false } }
/-- An image that fails is refused and logged, and nothing of it is loaded (R263). -/
def State.refuseImage (s : State) (version : Nat) : State := s.post 0x0050 2 0 version
/-- Chanter boots the slot chosen, or else the other one; where neither is accepted nothing boots (R263, log entry 95). -/
def State.boot (s : State) : State :=
  let m := s.mgmt
  let a := m.fwNext
  let ok (i : Nat) (k : Fin 2) : Bool := m.accepts k (Config.slotVerifies (s.freeCount + i))
  let t := s.drawn.drawn
  if ok 0 a then t.bootsSlot a
  else
    let t := t.refuseImage m.fwVersions[a]
    if ok 1 (a + 1) then t.bootsSlot (a + 1)
    else
      let t := t.refuseImage m.fwVersions[a + 1]
      { t with mgmt := { t.mgmt with noBoot := true } }
/-- A link over a device reset: it trains again, and a lost one stays LOST until it has trained (R256). -/
def Link.overReset (l : Link) : Link := { Link.reset with lost := l.lost }
/-- What a line keeps over a device reset: poison and mark (log entry 23). -/
def LineData.kept (d : LineData) : LineData := { LineData.clear with poison := d.poison, mark := d.mark }
/-- DEVICE_RESET (R8, R27, R263): every register has its reset value; the retired banks and the persistent log stay, and
memory keeps its contents (log entry 23). A reshard job that resumes from its progress record finds its source unchanged or
not as before the reset (R11, R244). -/
def execDeviceReset (s : State) : Host.Outcome State Fault Refusal :=
  .next { State.reset with
    inputs := s.inputs, freeCount := s.freeCount, nextId := s.nextId, mem := s.mem, links := s.links.map Link.overReset
    lines := (s.lines.map fun (e : Nat × LineData) => (e.1, e.2.kept)).filter fun e => e.2 ≠ LineData.clear
    faults := s.faults, retired := s.retired, errorCounts := s.errorCounts, module := s.module
    shardBefore := s.keepRunning, mgmt := s.mgmt.kept s.mgmt.fwNext }.boot
/-- At most 256 of the granules of 1 GiB are host-managed (R249). -/
def hdmOf (g : BitVec 384) : BitVec 384 := if (List.range 384).countP (fun i => g.getLsbD i) ≤ 256 then g else 0
/-- POWER_ON (R263, bring-up): a slot that fails verification is skipped, and the other boots; whether it fails, and
whether the host port trains with CXL (R250), are free; the HDM granules are chosen (R252). -/
def execPowerOn (hdm : BitVec 384) (s : State) : Host.Outcome State Fault Refusal :=
  .next { State.reset with
    inputs := s.inputs, freeCount := s.freeCount, nextId := s.nextId, retired := s.retired
    errorCounts := s.errorCounts
    mgmt := { s.mgmt.kept s.mgmt.fwNext with cxl := Config.cxlTrains s.freeCount, hdm := hdmOf hdm } }.boot

end Sys2Proof.Machine
end

