-- ==== Sys2Proof/Machine/MapUnit.lean ====
section
/-! DEFINITION. Mapped scratchpad regions (R154, R155, R170, R345 to R348). -/

namespace Sys2Proof.Machine

/-- Commands that the map unit of a tower holds (R345). -/
def State.mapsIn (s : State) (tower : Nat) : Nat :=
  s.jobs.countP fun j => towerOf j.loc = tower && (match j.kind with | .smap .. | .swb .. => true | _ => false)
def State.mapHeld (s : State) : Bool := decide (32 ≤ s.mapsIn (towerOf s.cur)) || s.trackingFull
/-- The linear scratchpad position of a bank offset (R345). -/
def linearPos (b o : Nat) : Nat := b * bankSize + o
/-- The physical address of a linear position of a cluster. -/
def linearPa (cluster p : Nat) : Nat := scratchPa cluster (p / bankSize) (p % bankSize)
/-- The bank fault of a run of linear positions, in the order 0x01, 0x03, 0x02 (R345). -/
def State.runFault (s : State) (start len off : Nat) : Option Nat :=
  let bs := if len = 0 then [] else
    (List.range ((start + len - 1) / bankSize + 1 - start / bankSize)).map fun i => start / bankSize + i
  if bs.any fun b => b < 64 && !s.bankOwned b then some 1
  else if bs.any fun b => b < 64 && s.bankRetired b then some 3
  else if bankSize ≤ off || bs.any fun b => 64 ≤ b then some 2
  else none
/-- SMAP (R345). -/
def execSmap (v w : SReg) (g : PReg) (s : State) : Host.Outcome State Fault Refusal :=
  engineOp 1 g s fun s =>
    let geo := s.me.gShadow
    let len := bits geo[0].toNat 31 0
    if s.mapHeld then s.holdIssue
    else
      match scratchWord (s.rs w), geoCompletion s.myCluster geo[3] with
      | some (b, o), some done =>
        if 2 ^ 32 ≤ geo[0].toNat || bits geo[3].toNat 63 62 ≠ 0 || 2 ^ 24 ≤ geo[4].toNat then s.trapAt 8 0x0B 0x65 0
        else
          let start := linearPos b o
          (match s.runFault start len o with
            | some sub => s.trapAt 8 0x03 sub 0
            | none =>
              (s.enterJob (.smap (s.rs v) start len) (bits geo[4].toNat 15 0)
                [{ scratch := false, space := s.me.ptroot.toNat, base := (s.rs v).toNat, len := len, write := false },
                 { scratch := true, space := s.myCluster, base := start, len := len, write := true }]
                done s.me.cseq).nextSeq)
      | _, _ => s.trapAt 8 0x0B 0x65 0
/-- The run of the region at a base: one that is entered, or that an earlier SMAP of the work will enter. -/
def State.regionAt (s : State) (va : Word) : Option (Nat × Nat) :=
  match s.me.regions.find? fun (r : MapRegion) => r.base = va with
  | some r => some (r.start, r.len)
  | none => s.jobs.findSome? fun j =>
      match j.kind with
      | .smap b st len => if j.work = s.me.work && b = va then some (st, len) else none
      | _ => none
/-- SWB and SUNMAP (R345). -/
def mapBack (unmap : Bool) (t v : SReg) (g : PReg) (s : State) : Host.Outcome State Fault Refusal :=
  engineOp 1 g s fun s =>
    if s.mapHeld then s.holdIssue
    else
      s.withBarrier t fun pa =>
        let foot : List FootRegion :=
          match s.regionAt (s.rs v) with
          | some (st, len) =>
            [{ scratch := true, space := s.myCluster, base := st, len := len, write := false },
             { scratch := false, space := s.me.ptroot.toNat, base := (s.rs v).toNat, len := len, write := true }]
          | none => []
        (s.enterJob (.swb (s.rs v) unmap) 0 foot (.barrier pa) s.me.cseq).nextSeq
/-- SUNMAP (R345). -/
def execSunmap (t v : SReg) (g : PReg) (s : State) : Host.Outcome State Fault Refusal := mapBack true t v g s
/-- SWB (R345). -/
def execSwb (t v : SReg) (g : PReg) (s : State) : Host.Outcome State Fault Refusal := mapBack false t v g s

/-! The region table of a work, live or Saved (R347). -/

/-- The regions of the work that issued a job. -/
def State.regionsOf (s : State) (j : Job) : List MapRegion :=
  match s.placeOf j.work with
  | some l => (s.ctx l).regions
  | none =>
    match s.saved.find? fun (v : Saved) => v.work = j.work with
    | some v => v.regions
    | none => (s.leftRegions.filter fun r => r.1 = j.work).map (·.2)
def State.setRegionsOf (s : State) (j : Job) (l : List MapRegion) : State :=
  match s.placeOf j.work with
  | some p => s.modCtx p fun c => { c with regions := l }
  | none =>
    { s with
      saved := s.saved.map fun (v : Saved) => if v.work = j.work then { v with regions := l } else v
      leftRegions := if s.saved.any fun (v : Saved) => v.work = j.work then s.leftRegions
        else (s.leftRegions.filter fun r => r.1 ≠ j.work) ++ l.map fun r => (j.work, r) }
/-- Regions of an ended work that no accepted command uses any more are forgotten (R347). -/
def State.clearRegions (s : State) : State :=
  { s with leftRegions := s.leftRegions.filter fun r => s.regionUsed r.1 r.2 }
/-- The map unit accepts commands of a work in CSEQ order (R346). -/
def State.mapFirst (s : State) (j : Job) : Bool :=
  !s.jobs.any fun k => k.id < j.id && k.work = j.work && (match k.kind with | .smap .. | .swb .. => !k.started | _ => false)
def MapRegion.meets (r : MapRegion) (start len : Nat) (va : Word) : Bool :=
  (start < r.start + r.len && r.start < start + len) ||
  (va.toNat < r.base.toNat + r.len && r.base.toNat < va.toNat + len)
/-- End a command with a status and its arrival (R346). -/
def State.endMap (s : State) (j : Job) (len status : Nat) : State :=
  let s := if status = 0 then s else s.latchCeerr j status
  let s := match j.kind with
    | .smap .. => s.arriveBytes j len
    | _ => s.arriveOnce j
  (s.dropJob j.id).clearRegions
/-- The contents of a run of linear positions are undefined (R346): free values, line by line. -/
def State.freeRun (s : State) (cluster start len : Nat) : State :=
  (List.range (len / 64)).foldl (fun (s : State) i => { s with
    mem := storeBytes s.mem (linearPa cluster (start + 64 * i)) 64 (freeBytesFrom s.freeCount 64)
    freeCount := s.freeCount + 64 }) s
/-- MAP_UNIT_ACCEPT: the region-table checks and changes (R346). From the acceptance of an SMAP on, a line of its region is
undefined until it is filled. -/
def execMapUnitAccept (id : Nat) (s : State) : Host.Outcome State Fault Refusal :=
  match s.job id with
  | none => .next s
  | some j =>
    if j.started || s.jobHeld j || !s.mapFirst j then .next s
    else
      let rs := s.regionsOf j
      match j.kind with
      | .smap va start len =>
        if va.toNat % 64 ≠ 0 || start % 64 ≠ 0 || len % 64 ≠ 0 then .next (s.endMap j len 0x0A)
        else if 16 ≤ rs.length then .next (s.endMap j len 8)
        else if rs.any fun r => r.meets start len va then .next (s.endMap j len 9)
        else
          .next (((s.freeRun (clusterOf j.loc) start len).setRegionsOf j (rs ++ [{ base := va, start := start, len := len, dirty := [], stale := false }])).putJob
            { j with started := true })
      | .swb va _ =>
        if rs.any fun r => r.base = va then .next (s.putJob { j with started := true })
        else .next (s.endMap j 0 0x0B)
      | .copy .. | .reloc .. | .msweep .. | .preq _ | .fampw _ | .task .. | .tdep .. | .reshard .. | .coll .. => .next s
/-- Fill one line of a region without marking it dirty (R154, R346). -/
def State.fillLine (s : State) (cluster p : Nat) (data : Nat) (poison : Bool) : State :=
  let pa := linearPa cluster p
  ((s.engineWrite pa 64 data (some poison)).writePoison pa true (some poison)).sramWrite pa 64 true
/-- One line of a fill. A retired bank (R26) and a fourth mark (R237) end the command; a line that cannot be read is poisoned
and its status latched (R346, log entry 73). -/
def State.fillStep (s : State) (j : Job) (va : Word) (start len : Nat) : Host.Outcome State Fault Refusal :=
  let cl := clusterOf j.loc
  let next (t : State) (j : Job) : Host.Outcome State Fault Refusal :=
    .next (t.putJob { j with pos := j.pos + 64, refused := false })
  let bad (s : State) (n : Nat) : Host.Outcome State Fault Refusal :=
    next (((s.fillLine cl (start + j.pos) 0 true).forgive j s).latchCeerr j n) j
  if len ≤ j.pos then .next (s.endMap j len 0)
  else if s.retired.contains (64 * cl + (start + j.pos) / bankSize) then .next (s.endMap j len 1)
  else if j.refused then bad s 2
  else
    let t := s.walked j.root j.user (va + BitVec.ofNat 64 j.pos) .read
    match s.jobChase j.root j.user (va + BitVec.ofNat 64 j.pos) .read with
    | .inr .hole => .fault .reservedAddress
    | .inr (.absent a) => .next (t.jobRequest j a)
    | .inr (.status n) => if n = 3 then bad t n else .next (t.endMap j len n)
    | .inl c =>
      let r := s.engineLoad j.pts c
      next ((r.s.fillLine cl (start + j.pos) r.data r.poison).forgive j s) { j with pts := r.pts }
/-- Write one dirty line back (R155, R170): a write as a store's, without permission it is dropped and counted. A FORMAT
page is treated as one without permission; an ABSENT one is taken as unmapped where the region is stale or the request for
it is refused, and else requested (log entry 111). A retired bank (R26) and a fourth mark (R237) end the command. A line to
which a core has stored in the cycle of its read stays dirty: the read finds it as it stood before (R152, R346). -/
def State.backStep (s : State) (j : Job) (r : MapRegion) (unmap : Bool) : Host.Outcome State Fault Refusal :=
  let cl := clusterOf j.loc
  let rs := s.regionsOf j
  let put (q : MapRegion) : List MapRegion := rs.map fun k => if k.base = q.base then q else k
  match ((List.range (r.len / 64)).drop (j.pos / 64)).find? fun i => r.dirty.contains i with
  | none =>
    let s := if unmap then s.setRegionsOf j (rs.filter fun k => k.base ≠ r.base) else s
    .next (s.endMap j 0 0)
  | some i =>
    let p := r.start + 64 * i
    let stays := s.early.any fun x => 64 * x.line = linearPa cl p
    let cleaned (s : State) : State :=
      if stays then s else s.setRegionsOf j (put { r with dirty := r.dirty.filter fun k => k ≠ i })
    let drop (s : State) : Host.Outcome State Fault Refusal :=
      .next (((cleaned s).faultRecord 0 j.loc).count.putJob { j with pos := 64 * (i + 1), refused := false })
    if s.retired.contains (64 * cl + p / bankSize) then .next (s.endMap j 0 1)
    else if j.refused then drop s
    else
      let t := s.walked j.root j.user (r.base + BitVec.ofNat 64 (64 * i)) .write
      match s.jobChase j.root j.user (r.base + BitVec.ofNat 64 (64 * i)) .write with
      | .inr .hole => .fault .reservedAddress
      | .inr (.absent a) => if r.stale then drop t else .next (t.jobRequest j a)
      | .inr (.status n) => if n = 3 then drop t else .next (t.endMap j 0 n)
      | .inl c =>
        let q := (cleaned s).bankRead cl (p / bankSize) (p % bankSize) 64 true
        let w := q.1.engineStore j c 64 q.2.1 q.2.2 (!q.2.2)
        .next (w.1.putJob { j with pts := w.2, pos := 64 * (i + 1) })
/-- MAP_UNIT_LINE_TRANSFER: a line of a fill or of a write-back, or the end of the command (R346). -/
def execMapUnitLineTransfer (id : Nat) (s : State) : Host.Outcome State Fault Refusal :=
  match s.job id with
  | none => .next s
  | some j =>
    if !j.started || j.request.isSome then .next s
    else
      match j.kind with
      | .smap va start len => s.fillStep j va start len
      | .swb va unmap =>
        (match (s.regionsOf j).find? fun (r : MapRegion) => r.base = va with
          | some r => s.backStep j r unmap
          | none => .next (s.endMap j 0 0))
      | .copy .. | .reloc .. | .msweep .. | .preq _ | .fampw _ | .task .. | .tdep .. | .reshard .. | .coll .. => .next s

end Sys2Proof.Machine
end

