-- ==== Sys2Proof/Machine/Preempt.lean ====
section
/-! DEFINITION. Pre-emption: where a request takes effect, the stop, the settling of the function array and of the
copies, the save (R87, R148, R214, R218 to R220, R222, R225, R228, R235, R245, R374, R381, R385). -/

namespace Sys2Proof.Machine

/-- A context stands at a point of R219 with a request pending. -/
def State.atPreemptPoint (s : State) (l : Nat) : Bool :=
  let c := s.ctx l
  c.preempt && c.stopping.isNone &&
    (match c.status with
      | .idle => false
      | .ready => c.startAt.isNone
      | .waiting _ => true
      | .running => c.atPoint || c.atGang || c.unissued || c.faCall.isSome)
/-- A context is in an engine wait that has not ended. -/
def Ctx.waits (c : Ctx) : Bool := c.woken.isNone && (match c.status with | .waiting _ => true | _ => false)
/-- A pending request takes effect now, for the whole gang of a member (R97, R218, R219). A bundle whose engine waits have
all ended commits first, also where a full engine holds it at its commit, which no rule says (log entry 135). -/
def State.preemptible (s : State) (l : Nat) : Bool :=
  let ms := s.preemptGroup l
  ms.any s.atPreemptPoint && (ms.all (fun m => (s.ctx m).woken.isNone) || ms.any fun m => (s.ctx m).waits) &&
    s.areasFor ms
/-- The cycle at which the bundle at the saved PC issued or would have issued, the M0 stall that it meets included (R71,
R214). Of a bundle under a capacity hold, or behind the re-issue of an FA call, no rule gives it: the model takes the cycle of
the freeze (log entry 116). -/
def State.savedCycle (s : State) : Nat :=
  match s.me.held with
  | some h => h.first
  | none => s.wouldIssue s.cycle
/-- Withdraw the queued routine of the acting context (R148). -/
def State.withdrawCall (s : State) : State :=
  let k := coreOf s.cur
  let u := s.fa k
  match u.queued with
  | some f =>
    if f.work = s.me.work then
      { s.setFa k { u with queued := none } with me := { s.me with faCall := some f } }
    else s
  | none => s
/-- Issue of a context stops (R219): an interrupted wait does not complete, results drain by the cycle `cs` of the bundle at the
saved PC, an area is taken, the queued routine is withdrawn, nobody waits for its page request. -/
def State.stopContext (s : State) (l cs : Nat) : State :=
  let here := s.cur
  let k := clusterOf l
  let s := s.actAs l
  match (s.cluster k).freeArea with
  | none => s.actAs here
  | some i =>
    let fr := s.me.freeze cs
    let c := s.cluster k
    let s := { s with
      me := { fr.1 with
        latched := fr.2, held := none, woken := none, preempt := false, atGang := false, unissued := false
        stopping := some i }
      requests := s.requests.map fun (r : PageRequest) => if r.loc = some l then { r with loc := none } else r }
    ((s.setCluster k { c with areas := c.areas ||| (1#32 <<< i) }).withdrawCall).actAs here

/-! Copies (R220, R385). -/

/-- The copies that a work has outstanding, in CSEQ order. -/
def State.copiesOf (s : State) (work : Nat) : List Job :=
  s.jobs.filter fun j => j.work = work && (match j.kind with | .copy .. => true | _ => false)
/-- Withdraw a copy (R220): re-credit the bytes delivered, if any (R385); its destination is undefined; the list of the
context at `l` takes it with the BTEST word of its barrier. -/
def State.withdrawCopy (s : State) (l : Nat) (j : Job) : State :=
  match j.kind with
  | .copy dst src g =>
    let t := match j.completion with
      | .barrier pa => (if j.pos = 0 then s else s.barrierExpect pa j.pos).barrierLine pa
      | .counter _ | .none => s
    let snap := match j.completion with
      | .barrier pa => some (pa, (t.barrier pa).testWord)
      | .counter _ | .none => none
    let s := match copyEnd dst with
      | some de => t.undefine j de g[2] (copyPortions de g)
      | none => t
    let w : Withdrawn := { order := j.id, dst := dst, src := src, g := g, seq := j.seq, snapshot := snap }
    (s.dropJob j.id).modCtx l fun c => { c with
      withdrawn := c.withdrawn.filter (fun x => x.order < j.id) ++ [w] ++ c.withdrawn.filter fun x => j.id < x.order }
  | .reloc .. | .msweep .. | .smap .. | .swb .. | .preq _ | .fampw _ | .task .. | .tdep .. | .reshard .. | .coll .. => s
/-- The entries that a work has pushed to the operand FIFOs of a core and no routine has consumed are discarded before its
save (R374). Its running routine has gone on with them: where it finds its FIFO empty it has ended with status 0x07
after the vectors it had completed (`State.faRead`), and `State.settles` has waited for that end. A trap discards none
(`trapEnter`). -/
def State.discardPushed (s : State) (core work : Nat) : State :=
  let u := s.fa core
  s.setFa core { u with
    fifoA := u.fifoA.filter fun e => e.work ≠ work || e.source != .push
    fifoB := u.fifoB.filter fun e => e.work ≠ work || e.source != .push }
/-- What a job of a pre-empted work does at the quiesce (R220, R235, R245): a copy that has written nothing is
withdrawn, another has 1024 cycles; relocations pause; a reshard job stops at its block boundary, and one that has ended
and waits for the page of its record keeps its end. -/
def State.quiesceJob (s : State) (l : Nat) (j : Job) : State :=
  match j.kind with
  | .copy .. => if j.pos = 0 then s.withdrawCopy l j else s.putJob { j with quiesce := some (s.cycle + Config.quiesceWindow) }
  | .reloc .. | .msweep .. => s.putJob { j with paused := true }
  | .reshard _ _ _ plan =>
    if plan.isSome && j.ending.isNone then s.stopReshard j 3 0x13 else s.putJob { j with paused := true }
  | .smap .. | .swb .. | .preq _ | .fampw _ | .task .. | .tdep .. | .coll .. => s
/-- Jobs of a work that the quiesce has still to treat. -/
def State.unquiesced (s : State) (work : Nat) : List Job :=
  s.jobs.filter fun j => j.work = work &&
    (match j.kind with
      | .copy .. => j.quiesce.isNone
      | .reloc .. | .msweep .. | .reshard .. => !j.paused
      | .smap .. | .swb .. | .preq _ | .fampw _ | .task .. | .tdep .. | .coll .. => false)

/-! The save (R225). -/

/-- The save of a stopped context: what it has pushed to the FIFOs is discarded (R374), the area is written with
REASON 1, the context is Idle and its instance Saved. -/
def State.savePreempted (s : State) (l i : Nat) : Host.Outcome State Fault Refusal :=
  let here := s.cur
  let s := s.actAs l
  let pa := areaPa (s.cluster (clusterOf l)) i
  if s.noPa pa then .fault .reservedAddress
  else
    let c := s.me
    let s := s.discardPushed (coreOf l) c.work
    let s := s.saveArea i 1 0 0 c.latched
    let v : Saved :=
      { work := c.work, task := c.task, area := pa, loc := l, root := c.ptroot, banks := c.banks, since := s.cycle
        aged := 0, regions := c.regions, spawned := c.spawned, ecc := c.eccLatched, eccLater := c.eccLater, m0 := c.m0
        m0Later := c.m0Later, fastat := c.fastat, gidx := c.gidx, ganged := c.ganged, fresh := c.fresh
        reissue := (c.faCall.bind fun (f : FaCall) => f.reissued).getD { moved := false, loads := (s.fa (coreOf l)).loads } }
    .next ((({ s with saved := s.saved ++ [v], me := Ctx.reset }).leaveCore l c.lastAt).actAs here)
/-- The settling of a stopped context can go on: its running routine has ended, and copies are to be quiesced or none
is left. -/
def State.settles (s : State) (l : Nat) : Bool :=
  let c := s.ctx l
  c.stopping.isSome && !((s.fa (coreOf l)).running.any fun f => f.work == c.work) &&
    (s.unquiesced c.work ≠ [] || s.copiesOf c.work = [])
/-- Settle a stopped context (R219): first its running routine ends, then its jobs quiesce, then it is saved. -/
def State.settleContext (s : State) (l : Nat) : Host.Outcome State Fault Refusal :=
  match (s.ctx l).stopping with
  | none => .next s
  | some i =>
    if !s.settles l then .next s
    else
      let s := (s.unquiesced (s.ctx l).work).foldl (fun (s : State) j => s.quiesceJob l j) s
      if s.copiesOf (s.ctx l).work = [] then s.savePreempted l i else .next s
/-- Settle each context of a list. -/
def settleAll : List Nat → State → Host.Outcome State Fault Refusal
  | [], s => .next s
  | l :: rest, s =>
    match s.settleContext l with
    | .next t => settleAll rest t
    | .fault r => .fault r
    | .refused r => .refused r
/-- PREEMPTION (R219): a request takes effect, or a stopped context settles. The members of a gang freeze at one bundle, whose
cycle counts before any of them has frozen (R95, R97, R214). -/
def execPreemption (loc : Fin 1024) (s : State) : Host.Outcome State Fault Refusal :=
  if (s.ctx loc.val).stopping.isSome then s.settleContext loc.val
  else if s.preemptible loc.val then
    let ms := s.preemptGroup loc.val
    settleAll ms (ms.foldl (fun (t : State) m => t.stopContext m (s.actAs m).savedCycle) s)
  else .next s
/-- The copies of a work whose quiesce window is over (R220). -/
def State.windowOver (s : State) (work : Nat) : List Job :=
  (s.copiesOf work).filter fun j => (match j.quiesce with | some c => decide (c ≤ s.cycle) | none => false)
/-- A copy at the end of its window: one that has finished completes, another is withdrawn (R220). -/
def State.windowEnd (s : State) (l : Nat) (j : Job) : State :=
  match j.kind with
  | .copy _ _ g => if j.copyEnded g then (s.arriveCounter j).dropJob j.id else s.withdrawCopy l j
  | .reloc .. | .msweep .. | .smap .. | .swb .. | .preq _ | .fampw _ | .task .. | .tdep .. | .reshard .. | .coll .. => s
/-- COPY_QUIESCE_WINDOW_EXPIRY (R220): unfinished copies stop at a line boundary and are withdrawn. -/
def execCopyQuiesceWindowExpiry (loc : Fin 1024) (s : State) : Host.Outcome State Fault Refusal :=
  let l := loc.val
  ((s.windowOver (s.ctx l).work).foldl (fun (s : State) j => s.windowEnd l j) s).settleContext l

end Sys2Proof.Machine
end

