-- ==== Sys2Proof/Machine/Reloc.lean ====
section
/-! DEFINITION. Relocation and mark sweeping (R190, R229 to R236, R326, R334). -/

namespace Sys2Proof.Machine

/-- Relocation jobs that the engine of a tower holds, paused ones included (R232). -/
def State.relocsIn (s : State) (tower : Nat) : Nat :=
  s.jobs.countP fun j => towerOf j.loc = tower && (match j.kind with | .reloc .. | .msweep .. => true | _ => false)
/-- The hold of RELOC and MSWEEP (R232). -/
def State.relocHeld (s : State) : Bool := decide (16 ≤ s.relocsIn (towerOf s.cur)) || s.trackingFull
/-- A written region of the acting context's address space. -/
def State.writtenRegion (s : State) (base len : Nat) : FootRegion :=
  { scratch := false, space := s.me.ptroot.toNat, base := base, len := len, write := true }
/-- RELOC (R232, R334): its GEN is the generation counter, which advances. -/
def execReloc (d a : SReg) (g : PReg) (s : State) : Host.Outcome State Fault Refusal :=
  engineOp 1 g s fun s =>
    let geo := s.me.gShadow
    let dst := (s.rs d).toNat
    let src := (s.rs a).toNat
    let len := bits geo[0].toNat 31 0
    if s.relocHeld then s.holdIssue
    else
      match geoCompletion s.myCluster geo[3] with
      | none => s.trapAt 8 0x0B 0x40 0
      | some done =>
        if dst % 4096 ≠ 0 || src % 4096 ≠ 0 || 2 ^ 57 ≤ dst || 2 ^ 57 ≤ src || len = 0 || len % 4096 ≠ 0 ||
            bits geo[0].toNat 47 32 ≠ 0 || geo[1] ≠ 0 || geo[2] ≠ 0 || bits geo[4].toNat 23 16 ≠ 0 || !geometryOk geo ||
            (dst < src + len && src < dst + len) then s.trapAt 8 0x0B 0x40 0
        else
          let s' := s.enterJob (.reloc (s.rs d) (s.rs a) len s.generation.toNat) (bits geo[4].toNat 15 0)
            [s.writtenRegion src len, s.writtenRegion dst len] done s.me.cseq
          { s'.nextSeq with generation := s.generation + 1 }
/-- MSWEEP (R232, R326): of g3 only CKIND and CTGT are checked. -/
def execMsweep (b l : SReg) (g : PReg) (s : State) : Host.Outcome State Fault Refusal :=
  engineOp 1 g s fun s =>
    let geo := s.me.gShadow
    let base := (s.rs b).toNat
    let len := (s.rs l).toNat
    if s.relocHeld then s.holdIssue
    else
      match completionOf s.myCluster (bits geo[3].toNat 63 62) (bits geo[3].toNat 27 0) with
      | none => s.trapAt 8 0x0B 0x41 0
      | some done =>
        if base % 64 ≠ 0 || len % 64 ≠ 0 || len = 0 || 2 ^ 40 ≤ len || 2 ^ 57 ≤ base then s.trapAt 8 0x0B 0x41 0
        else
          (s.enterJob (.msweep (s.rs b) len) (bits geo[4].toNat 15 0) [s.writtenRegion base len] done s.me.cseq).nextSeq

/-- A relocation or sweep ends at a failure (R233): bytes not moved arrive, the status is latched. -/
def State.failReloc (s : State) (j : Job) (len status : Nat) : State :=
  let s := s.latchCeerr j status
  let s := if j.pos < len then s.arriveBytes j (len - j.pos) else s
  (s.arriveCounter j).dropJob j.id
/-- A translation of a job without a chase (R233). -/
def State.jobTranslate (s : State) (j : Job) (va : Word) : Xlate ⊕ EngineStop :=
  let x := s.translate j.root va .write j.user
  match x.st with
  | .ok => .inl x
  | .absent => .inr (.absent va)
  | .format | .protect | .chain => .inr (.status 3)
  | .hole => .inr .hole
/-- The reads of the tables by which a job translates an address, where they stand in a bank (R21). -/
def State.jobTables (s : State) (j : Job) (va : Word) : State := s.readLines (s.tableLines j.root va)
/-- After a stop: wait for the page (R167), or fail. -/
def State.relocStop (s : State) (j : Job) (len : Nat) (st : EngineStop) : Host.Outcome State Fault Refusal :=
  match st with
  | .hole => .fault .reservedAddress
  | .status n => .next (s.failReloc j len n)
  | .absent va => .next (s.jobRequest { j with started := true } va)
/-- One line is done: it arrives, and after the last one the job ends (R233, R236). -/
def State.relocAdvance (s : State) (j : Job) (pts : Word) (len : Nat) : State :=
  let j := { j with started := true, pts := pts, pos := j.pos + 64 }
  let s := (s.putJob j).arriveBytes j 64
  if len ≤ j.pos then (s.arriveCounter j).dropJob j.id else s
/-- The word of a mark (R230). -/
def markWord (dst src : Word) (gen : Nat) : Nat := dst.toNat + src.toNat * 2 ^ 64 + gen * 2 ^ 128
/-- Steps 1 to 3 of a line (R233, R234): the line moves as it stands, mark bit included, and leaves a mark. Both writes come
after every access that reached the line before (R190). The mark changes no data: every access that chases it finds those at
the destination (R237), so that it breaks no rule of R274. -/
def State.moveLine (s : State) (pts : Word) (xs xd : Xlate) (mark : Nat) : State × Word :=
  let d := s.line xs.pa
  let data := loadBytes s.mem (xs.pa / 64 * 64) 64
  let r := s.lineStore (wmax pts (d.rts + 1)) none xd.e (xd.pa / 64 * 64) 64 data d.poison (!d.poison)
  let s := (r.1.setLine xd.pa { r.1.line xd.pa with mark := d.mark }).l2Mark (xd.pa / 64) true
  let q := s.lineStore r.2 none xs.e (xs.pa / 64 * 64) 64 mark false true
  let t := { q.1 with breaches := s.breaches }
  ((t.setLine xs.pa { t.line xs.pa with mark := true }).l2Mark (xs.pa / 64) true, q.2)
/-- A job that may act now: it exists, is not paused and waits for no page. -/
def State.actingJob (s : State) (id : Nat) : Option Job :=
  match s.job id with
  | some j => if j.paused || j.request.isSome || (!j.started && s.jobHeld j) then none else some j
  | none => none

/-- RELOC_LINE_MOVE (R233). -/
def execRelocLineMove (id : Nat) (s : State) : Host.Outcome State Fault Refusal :=
  match s.actingJob id with
  | none => .next s
  | some j =>
    match j.kind with
    | .reloc dst src len gen =>
      if j.refused then .next (s.failReloc j len 2)
      else
        let t1 := s.jobTables j (src + BitVec.ofNat 64 j.pos)
        let t := t1.jobTables j (dst + BitVec.ofNat 64 j.pos)
        (match s.jobTranslate j (src + BitVec.ofNat 64 j.pos), s.jobTranslate j (dst + BitVec.ofNat 64 j.pos) with
          | .inr st, _ => t1.relocStop j len st
          | .inl _, .inr st => t.relocStop j len st
          | .inl xs, .inl xd =>
            if !movable xs || !movable xd then .next (t.failReloc j len 5)
            else if (s.line xd.pa).mark then .next (t.failReloc j len 6)
            else
              let r := t.moveLine j.pts xs xd (markWord dst src gen)
              .next ((r.1.forgive j s).relocAdvance j r.2 len))
    | .copy .. | .msweep .. | .smap .. | .swb .. | .preq _ | .fampw _ | .task .. | .tdep .. | .reshard .. | .coll .. =>
      .next s
/-- MSWEEP_LINE (R236): a marked line becomes zero, whatever MOV its page has (R230). A line of a retired bank ends the job
(R26, R205). -/
def execMsweepLine (id : Nat) (s : State) : Host.Outcome State Fault Refusal :=
  match s.actingJob id with
  | none => .next s
  | some j =>
    match j.kind with
    | .msweep base len =>
      if j.refused then .next (s.failReloc j len 2)
      else
        let t := s.jobTables j (base + BitVec.ofNat 64 j.pos)
        (match s.jobTranslate j (base + BitVec.ofNat 64 j.pos) with
          | .inr st => t.relocStop j len st
          | .inl x =>
            let s := if inBank x.pa then (t.portRead x.pa).1 else t
            if t.inRetired x.pa then .next (t.failReloc j len 1)
            else if (s.line x.pa).mark then
              let r := s.lineStore j.pts none x.e (x.pa / 64 * 64) 64 0 false true
              .next ((((r.1.setLine x.pa { r.1.line x.pa with mark := false }).l2Mark (x.pa / 64) true).forgive j s).relocAdvance j
                r.2 len)
            else .next (s.relocAdvance j j.pts len))
    | .copy .. | .reloc .. | .smap .. | .swb .. | .preq _ | .fampw _ | .task .. | .tdep .. | .reshard .. | .coll .. =>
      .next s

end Sys2Proof.Machine
end

