-- ==== Sys2Proof/Machine/Agenda.lean ====
section
/-! DEFINITION. Which events of the module are due, which may come next, and whose turn it is to issue. -/

namespace Sys2Proof.Machine

/-! Events. -/

/-- What the module does of itself: the events of the opcode table that need nothing from outside, one read or vector of a
running routine, one row that its fetcher reads ahead, the note that a head has become ready, one line of the scrubber, one
record on its way to the host's event ring, the loss of data that a store has reached against a rule, the ends of PWAITs, and
the failures of jobs whose link is lost. -/
inductive Act where
  | breach
  | planes
  | timeStepBoundary
  | homeTick
  | ptsTick
  | l1CopyAgeExpiry
  | engineWaitEnd (l : Fin 1024)
  | spawnedContextReady (l : Fin 1024)
  | copyStart (j : Nat)
  | copyLineWrite (j : Nat)
  | copyComplete (j : Nat)
  | copyLinkLost (j : Nat)
  | relocLineMove (j : Nat)
  | msweepLine (j : Nat)
  | mapUnitAccept (j : Nat)
  | mapUnitLineTransfer (j : Nat)
  | taskRecordSubmit (j : Nat)
  | tdepDecrement (j : Nat)
  | reshardBlock (j : Nat)
  | collJobStart (j : Nat)
  | collComplete (j : Nat)
  | preemption (l : Fin 1024)
  | copyQuiesceWindowExpiry (l : Fin 1024)
  | faCallReissue (l : Fin 1024)
  | savedInstanceResume (w : Nat)
  | taskDispatch
  | faRoutineStart (k : Fin 256)
  | faMulticastStart (k : Fin 256)
  | faRoutineComplete (k : Fin 256)
  | faStep (k : Fin 256)
  | faAhead (k : Fin 256) (op : Fin 2)
  | reshardStop (j : Nat)
  | reshardLinkLost (j : Nat)
  | scrub
  | ringCopy
  | effectiveLevelAging (saved : Bool) (who : Nat)
  | noteHead (q : Fin 64)
  | cellErrorWriteBack (l : Nat)
  deriving DecidableEq, Repr

/-- Data that a breach has reached (R11), clock events, the end of the scrubber's day (R23), ends of waits, requests for
pre-emption at their first point (R219), ends of the quiesce window (R220): each comes before anything else. -/
def State.dueEvents (s : State) : List Act :=
  (if s.breaches ≠ [] then [.breach] else []) ++
  (if s.planesDue then [.planes] else []) ++
  (if s.nextStep ≤ s.cycle then [.timeStepBoundary] else []) ++
  (if s.nextTick ≤ s.cycle then [.homeTick] else []) ++
  (if s.ptsTicks < s.cycle / 256 then [.ptsTick] else []) ++
  (if s.l1.any fun k => !k.excl && k.filled + Config.l1Age ≤ s.cycle then [.l1CopyAgeExpiry] else []) ++
  (if s.scrubStart + s.dayCycles ≤ s.cycle then [.scrub] else []) ++
  (s.queues.flatMap fun e =>
    (if s.headNoted e.1 then [] else [.noteHead (Fin.ofNat 64 e.1)]) ++
    (if s.headAges e.1 then [.effectiveLevelAging false e.1] else [])) ++
  (s.saved.flatMap fun v => if s.savedAges v then [.effectiveLevelAging true v.work] else []) ++
  s.places.flatMap fun l =>
    let c := s.ctx l
    let at_ := Fin.ofNat 1024 l
    (match c.status with
      | .waiting _ => if c.woken.isSome && c.stopping.isNone then [.engineWaitEnd at_] else []
      | .idle | .ready | .running => []) ++
    (match c.startAt with
      | some t => if t ≤ s.cycle then [.spawnedContextReady at_] else []
      | none => []) ++
    (if c.stopping.isNone && s.preemptible l then [.preemption at_] else []) ++
    (if c.stopping.isSome && s.windowOver c.work ≠ [] then [.copyQuiesceWindowExpiry at_] else [])

/-- The first step of a job that can come next. -/
def State.jobEvent (s : State) (j : Job) : List Act :=
  if j.request.isSome then []
  else
    match j.kind with
    | .copy d a g =>
      if !j.started then (if s.copyMayStart j then [.copyStart j.id] else [])
      else if j.failed || copyBytes g ≤ j.pos then [.copyComplete j.id]
      else if s.copyLost j d a g then [.copyLinkLost j.id]
      else if s.remoteVa a || !s.portionReady j d g then []
      else [.copyLineWrite j.id]
    | .reloc .. => if j.paused || !j.started && s.jobHeld j then [] else [.relocLineMove j.id]
    | .msweep .. => if j.paused || !j.started && s.jobHeld j then [] else [.msweepLine j.id]
    | .smap .. | .swb .. =>
      if !j.started then (if s.jobHeld j then [] else [.mapUnitAccept j.id]) else [.mapUnitLineTransfer j.id]
    | .preq _ | .fampw _ => []
    | .task .. =>
      if s.jobs.any fun k => k.id < j.id && k.work = j.work && (match k.kind with | .task .. => true | _ => false) then []
      else [.taskRecordSubmit j.id]
    | .tdep .. => [.tdepDecrement j.id]
    | .reshard _ _ _ plan =>
      if j.ending.isSome then [.reshardBlock j.id]
      else if plan.isNone then (if s.jobHeld j then [] else [.reshardBlock j.id])
      else if j.paused then [.reshardStop j.id]
      else if (s.reshardPeers j).any s.lostTo then [.reshardLinkLost j.id]
      else if s.reshardPeers j ≠ [] then []
      else [.reshardBlock j.id]
    | .coll _ c =>
      match c with
      | none => if s.jobHeld j then [] else [.collJobStart j.id]
      | some c =>
        if !c.read || c.pending.isSome then [.collJobStart j.id]
        else if c.finished && c.delivered then [.collComplete j.id] else []

/-- What the array of a core can do next (R137, R141). -/
def State.faEvent (s : State) (k : Nat) : List Act :=
  let u := s.fa k
  let at_ := Fin.ofNat 256 k
  match u.running with
  | none => []
  | some c =>
    if !u.started then [.faRoutineStart at_]
    else if c.total ≤ c.vec then (if u.beatsDone c s.cycle then [.faRoutineComplete at_] else [])
    else if c.leads k && !c.streaming then (if s.castReady k c then [.faMulticastStart at_] else [])
    else
      (if (s.faAdvance k).isSome then [.faStep at_] else []) ++
        [(0 : Fin 2), 1].filterMap fun op => if (s.faAhead k op.val).isSome then some (.faAhead at_ op) else none
/-- What may come next for the context at a place. -/
def State.placeEvent (s : State) (l : Nat) : List Act :=
  let at_ := Fin.ofNat 1024 l
  let c := s.ctx l
  (if s.settles l then [.preemption at_] else []) ++
  (if c.faCall.isSome && c.status = .running && c.stopping.isNone && !(s.fa (coreOf l)).full then [.faCallReissue at_]
    else [])
/-- What the scheduler can do next (R197, R218, R223). -/
def State.dispatchEvent (s : State) : List Act :=
  match s.decision with
  | .resume v => [.savedInstanceResume v.work]
  | .start _ => [.taskDispatch]
  | .wait => if s.asking.isSome then [.taskDispatch] else []
/-- What the engines may do next in a cycle, once the contexts have issued. -/
def State.freeEvents (s : State) : List Act :=
  s.jobs.flatMap s.jobEvent ++ s.places.flatMap s.placeEvent ++ s.dispatchEvent ++
    s.cores.flatMap (fun k => s.faEvent k.1) ++ (s.corrections.map fun l => .cellErrorWriteBack l) ++
    (if s.scrubNext < scrubTotal then [.scrub] else []) ++ if s.mgmt.ring ≠ [] then [.ringCopy] else []

/-- A context that may issue: Running, and no member of a formed gang but its lead (R93). -/
def Ctx.issues (c : Ctx) : Bool :=
  c.status == .running && c.stopping.isNone && !(c.ganged && bits c.gidx.toNat 5 0 != 0)
/-- The first context that may issue and has not had its turn in this cycle. -/
def State.toIssue (s : State) : Option Nat := s.places.find? fun l => (s.ctx l).issues && (s.ctx l).turn ≤ s.cycle
/-- After a context has issued or passed: the next one has its turn, also one that has become Running meanwhile. When none is
left, the engines act (R87, R89, R152). -/
def State.rotate (s : State) : State :=
  let t := s.modMe fun c => if c.status = .idle then c else { c with turn := s.cycle + 1 }
  match t.toIssue with
  | some l => t.actAs l
  | none => { t with engines := true }
/-- The end of a cycle: the first context that may issue has the turn in the next. -/
def State.endCycle (s : State) : State :=
  let t := { s with cycle := s.cycle + 1, engines := false, early := [], late := [] }
  match t.toIssue with
  | some l => t.actAs l
  | none => t

end Sys2Proof.Machine
end

