-- ==== Sys2Proof/Machine/Control.lean ====
section
/-! DEFINITION. Control transfers, loops, HALT, TRAP, ERET (R51, R84 to R86, R217, R289, R291, R299, R316, R317, R322,
R323, R336, R358). -/

namespace Sys2Proof.Machine

/-- Clear the bits of an address that no bundle address has: [63:57] and [1:0] (R317). -/
def bundleAddr (w : Word) : Word := w &&& 0x01FFFFFFFFFFFFFC#64
/-- A displacement from the transfer's own bundle (R289). -/
def State.branchTarget (s : State) (disp : Int) : Word :=
  (s.me.pc + BitVec.ofInt 64 (4 * disp)) &&& 0x01FFFFFFFFFFFFFF#64
/-- Record a control transfer, taken or not; in a delay bundle it is sub-code 0x07 (R51, R52). -/
def State.transferTo (s : State) (taken : Bool) (target : Word) (kind : TransferKind) : State :=
  if s.me.delay.isSome then s.trapAt 0 0x01 0x07 0
  else { s with issue := { s.issue with transfer := some { taken := taken, target := target, kind := kind } } }

/-- BR (R289). Its slot is occupied for one cycle, as that of every transfer and loop form (R71, log entry 82). -/
def execBr (neg : Bool) (p : PReg) (disp : Int) (s : State) : Host.Outcome State Fault Refusal :=
  settle s ((s.occupy 0 1).transferTo (s.pr p != neg) (s.branchTarget disp) .pops)
/-- J (R317). -/
def execJ (disp : Int) (s : State) : Host.Outcome State Fault Refusal :=
  settle s ((s.occupy 0 1).transferTo true (s.branchTarget disp) .pops)
/-- JR (R317). -/
def execJr (a : SReg) (g : PReg) (s : State) : Host.Outcome State Fault Refusal :=
  settle s ((s.occupy 0 1).transferTo (s.pr g) (bundleAddr (s.rs a)) .pops)
/-- RET (R336). -/
def execRet (g : PReg) (s : State) : Host.Outcome State Fault Refusal :=
  settle s ((s.occupy 0 1).transferTo (s.pr g) (bundleAddr (s.rs 63)) .plain)
/-- The address of the bundle after the two that follow this one (R289). -/
def State.returnAddress (s : State) : Word :=
  s.bundleEnd (s.bundleEnd (s.me.pc + BitVec.ofNat 64 (4 * s.issue.len)))
/-- CALL writes s63 with latency 1 (R289). -/
def execCall (disp : Int) (s : State) : Host.Outcome State Fault Refusal :=
  settle s (((s.occupy 0 1).transferTo true (s.branchTarget disp) .plain).result 0 1
    (.scalar 63 s.returnAddress false))
/-- CHK (R291). -/
def execChk (a : SReg) (imm : Int) (s : State) : Host.Outcome State Fault Refusal :=
  settle s ((s.occupy 0 1).transferTo (s.rp a) (s.branchTarget imm) .pops)
/-- ERET is privileged whatever its guard (R52, R277, R299). -/
def execEret (g : PReg) (s : State) : Host.Outcome State Fault Refusal :=
  settle s (if s.me.priv then (s.occupy 0 1).transferTo (s.pr g) 0 .eret else s.trapAt 0 0x01 0x0A 0)

/-- The effect of LOOP and LOOPI (R84). A loop in a delay bundle is schedule fault 0x03 (R86). In a bundle with LBRK the push
comes first, which no rule says (log entry 119). -/
def State.pushLoop (s : State) (count : Word) (len : Nat) : State :=
  let start := s.me.pc + BitVec.ofNat 64 (4 * s.issue.len)
  let stop := start + BitVec.ofNat 64 (4 * len)
  if len = 0 then s.trapAt 0 0x01 0x09 0
  else if s.me.delay.isSome then s.trapAt 0 0x02 0x03 0
  else if count = 0 then { s with issue := { s.issue with skip := some stop } }
  else if s.me.loops.length = 6 then s.trapAt 0 0x02 0x02 0
  else s.modMe fun c => { c with loops := { start := start, stop := stop, remaining := count } :: c.loops }
/-- LOOP (R322). -/
def execLoop (c : SReg) (len : Nat) (s : State) : Host.Outcome State Fault Refusal :=
  settle s ((s.occupy 0 1).pushLoop (s.rs c) len)
/-- LOOPI (R322). -/
def execLoopi (count : Fin 4096) (len : Nat) (s : State) : Host.Outcome State Fault Refusal :=
  settle s ((s.occupy 0 1).pushLoop (BitVec.ofNat 64 count.val) len)
/-- LBRK (R323). -/
def execLbrk (g : PReg) (s : State) : Host.Outcome State Fault Refusal :=
  settle s (guarded g (s.occupy 0 1) fun s => { s with issue := { s.issue with lbrk := true } })
/-- HALT (R316). -/
def execHalt (g : PReg) (s : State) : Host.Outcome State Fault Refusal :=
  settle s (guarded g (s.occupy 0 1) fun s => { s with issue := { s.issue with halt := true } })
/-- TRAP: its bundle commits, and then it traps (R212, R358). -/
def execTrap (code : Fin 512) (s : State) : Host.Outcome State Fault Refusal :=
  settle s { s.occupy 0 1 with issue := { s.issue with
    soft := some (s.issue.soft.getD { cause := 0x09, sub := code.val, slot := s.slotOr 0, addr := 0 }) } }

end Sys2Proof.Machine
end

