-- ==== Sys2Proof/Machine/Float.lean ====
section
/-! DEFINITION. Scalar floating-point instructions (R297, R310 to R312). -/

namespace Sys2Proof.Machine

/-- F32 of a scalar register (R297). -/
def State.f32 (s : State) (i : SReg) : Val := fmtF32.decode ((s.rs i).toNat % 2 ^ 32)
/-- A scalar floating result: latency 4 (R310). -/
def floatOp (g : PReg) (d : SReg) (bits : Nat) (poison : Bool) (s : State) : Host.Outcome State Fault Refusal :=
  scalarOp 1 4 g d (BitVec.ofNat 64 bits) poison s

/-- FADD (R310). -/
def execFadd (d a b : SReg) (g : PReg) (s : State) : Host.Outcome State Fault Refusal :=
  floatOp g d (fmtF32.rne ((s.f32 a).add (s.f32 b))) (s.rp a || s.rp b) s
/-- FMUL (R310). -/
def execFmul (d a b : SReg) (g : PReg) (s : State) : Host.Outcome State Fault Refusal :=
  floatOp g d (fmtF32.rne ((s.f32 a).mul (s.f32 b))) (s.rp a || s.rp b) s
/-- FFMA: the addend is sD (R310). -/
def execFfma (d a b : SReg) (g : PReg) (s : State) : Host.Outcome State Fault Refusal :=
  floatOp g d (fmtF32.rne (((s.f32 a).mul (s.f32 b)).add (s.f32 d))) (s.rp a || s.rp b || s.rp d) s
/-- FCMP.EQ (R311). -/
def execFcmpEq (d : PReg) (a b : SReg) (g : PReg) (s : State) : Host.Outcome State Fault Refusal :=
  predOp 4 g d (fEq (s.f32 a) (s.f32 b)) s
/-- FCMP.LT (R311). -/
def execFcmpLt (d : PReg) (a b : SReg) (g : PReg) (s : State) : Host.Outcome State Fault Refusal :=
  predOp 4 g d (fLt (s.f32 a) (s.f32 b)) s
/-- FCMP.LE (R311). -/
def execFcmpLe (d : PReg) (a b : SReg) (g : PReg) (s : State) : Host.Outcome State Fault Refusal :=
  predOp 4 g d (fLe (s.f32 a) (s.f32 b)) s
/-- FCMP.UN (R311). -/
def execFcmpUn (d : PReg) (a b : SReg) (g : PReg) (s : State) : Host.Outcome State Fault Refusal :=
  predOp 4 g d (fUn (s.f32 a) (s.f32 b)) s

/-- FCVT's result bits (R312): an integer saturates, a float follows R107. -/
def convertScalar (cv : FcvtForm) (mode : Mode) (sat : Bool) (x : Word) : Word :=
  let n := x.toNat
  let f32 := fmtF32.decode (n % 2 ^ 32)
  match cv with
  | .i64F32 => BitVec.ofInt 64 (convertInt mode (-(2 ^ 63)) (2 ^ 63 - 1) f32)
  | .f32I64 => BitVec.ofNat 64 (fmtF32.convert mode false (ofInt x.toInt 0 false))
  | .i32F32 => BitVec.ofInt 64 (convertInt mode (-(2 ^ 31)) (2 ^ 31 - 1) f32)
  | .f16F32 => BitVec.ofNat 64 (fmtF16.convert mode sat f32)
  | .f32F16 => BitVec.ofNat 64 (fmtF32.convert mode false (fmtF16.decode (n % 2 ^ 16)))
  | .bf16F32 => BitVec.ofNat 64 (fmtBf16.convert mode sat f32)
  | .f32Bf16 => BitVec.ofNat 64 (fmtF32.convert mode false (fmtBf16.decode (n % 2 ^ 16)))
  | .e4m3F32 => BitVec.ofNat 64 (fmtE4m3.convert mode sat f32)
/-- FCVT (R312); stochastic rounding draws at SRORG (R108). -/
def execFcvt (d a : SReg) (cv : FcvtForm) (rm : Rounding) (sat : Bool) (g : PReg) (s : State) :
    Host.Outcome State Fault Refusal :=
  scalarOp 1 4 g d (convertScalar cv (modeOf rm s.me.srkey s.me.srorg) sat (s.rs a)) (s.rp a) s

end Sys2Proof.Machine
end

