-- ==== Sys2Proof/Machine/Mem0.lean ====
section
/-! DEFINITION. M0 instructions: loads, stores, atomics, prefetch and flush of global memory (R63 to R65, R166, R167,
R171 to R177, R181, R237, R238, R282, R283, R314, R318 to R320, R332, R350, R351, R368, R369). -/

namespace Sys2Proof.Machine

/-! Addresses and chases. -/

/-- ChaseMark of the acting context (R173). -/
def State.chaseMe (s : State) (va : Word) (kind : Access) : Chased := chase s s.me.ptroot va kind (!s.me.priv)
/-- The effective address of an immediate form: the offset is in units of `n` bytes (R63). -/
def State.eaImm (s : State) (b : SReg) (imm : Int) (n : Nat) : Word := s.rs b + BitVec.ofInt 64 (imm * n)
/-- The effective address of an index form (R318, R350). -/
def State.eaIndex (s : State) (b x : SReg) : Word := s.rs b + s.rs x
/-- An access whose translation shows MOV = 1 holds its base register (R237). -/
def State.chaseHold (s : State) (b : SReg) (cs : List Chased) : State :=
  if cs.any fun c => c.gens ≠ [] || (c.x.st == .ok && leafMov c.x.e) then s.holdBase b else s
/-- The base rewrite of an access that met a mark, unless its destination is its base or its base is s0 (R238). -/
def State.rewriteTo (s : State) (own : Option SReg) (b : SReg) (cs : List Chased) : State :=
  let delta := (cs.head?.map (·.delta)).getD 0
  let s := s.chaseHold b cs
  if delta = 0 || b = 0 || own = some b then s
  else { s with issue := { s.issue with rewrite := some (b, s.rs b + delta) } }
/-- One Load of R175 by the acting context at the place a chase reached, after the marks that it met (R190). The reads of its
tables and of its line are one access, before which `gone` were retired (R26). -/
def State.loadAt (s : State) (c : Chased) (gone : List Nat := s.retired) : LineRead :=
  let r := (s.readLines c.tables gone).lineLoad (coreOf s.cur) (wmax s.me.pts c.seen) c.x.e c.x.pa gone
  { r with s := r.s.modMe fun c => { c with pts := r.pts } }
/-- One Store of R175 under R181 by the acting context, of the bytes that `mask` selects: its L1 then holds the line
(R156). -/
def State.storeAt (s : State) (c : Chased) (n val : Nat) (setP clrP : Bool) (mask : BitVec 64 := BitVec.allOnes 64) :
    State :=
  let r := (s.readLines c.tables).ruledStore (wmax s.me.pts c.seen) s.me.wid c.x.e c.x.pa n val setP clrP mask
  let t := if r.2.2 then r.1 else (r.1.forgiveWork s.me.work s).ownLine (coreOf s.cur) c.x.e c.x.pa
  t.modMe fun c => let c := { c with pts := r.2.1 }
                   if r.2.2 then c.dropCounted else c
/-- Whether a poisoned delivery of this context traps (R172). -/
def State.strict (s : State) : Bool := s.me.memctl.getLsbD 0
/-- What a loaded number becomes in a register: sign- or zero-extended (R318). -/
def extendLoad (sg : Bool) (n v : Nat) : Word := if sg then BitVec.ofInt 64 (sgn (8 * n) v) else BitVec.ofNat 64 v

/-! Scalar loads. -/

/-- What LDS delivers where LD would raise an exception: 0 with its poison bit set, and the residency predicate false
(R319). -/
def State.speculated (s : State) (d : SReg) (p : PReg) : State := s.outstanding [.scalar d 0 true, .pred p false] false
/-- LD (`lds` false) and LDS after the address is known (R318, R319). An LDS that a fourth mark, a protection or a format
stops commits: it holds its base as any access to a movable page does (R237), and rewrites it where the chase has given a
delta, which a fourth mark does not (R238, log entry 103). -/
def State.scalarLoad (s : State) (lds sg : Bool) (n : Nat) (d b : SReg) (p : PReg) (va : Word) : State :=
  let s := s.occupy 6 1
  if va.toNat % n ≠ 0 then if lds then s.speculated d p else s.trapAt 6 0x0B 0x60 va
  else
    let c := s.chaseMe va .read
    match c.x.st with
    | .hole => s.fatalAddress
    | .chain =>
      if lds then ((s.readLines c.tables).speculated d p).chaseHold b [c]
      else (s.checking c.tables).chainTrap (va + c.delta) c.gens
    | .format | .protect =>
      if lds then ((s.readLines c.tables).speculated d p).rewriteTo (some d) b [c]
      else (s.checking c.tables).trapAt 6 0x06 0x01 va
    | .absent => ((s.readLines c.tables).outstanding [.scalar d 0 false, .pred p false] false).rewriteTo (some d) b [c]
    | .ok =>
      let r := s.loadAt c
      (r.s.outstanding [.scalar d (extendLoad sg n (lineBytes r.data c.x.pa n)) r.poison, .pred p true]
        (s.strict && r.poison && !lds)).rewriteTo (some d) b [c]

/-! Stores and atomics. -/

/-- The checks of a store-class access to `n` aligned bytes (R350, R283): its instruction waits at an absent page, and
traps where the request was refused, whatever has become of the page since (R167). -/
def State.storeTarget (s : State) (i : Instr) (n : Nat) (va : Word) (f : Chased → State) : State :=
  if va.toNat % n ≠ 0 then s.trapAt 6 0x0B 0x60 va
  else if s.issue.woken = some .refused then s.trapAt 6 0x06 0x02 va
  else
    let c := s.chaseMe va .write
    match c.x.st with
    | .hole => s.fatalAddress
    | .chain => (s.checking c.tables).chainTrap (va + c.delta) c.gens
    | .format | .protect => (s.checking c.tables).trapAt 6 0x06 0x03 va
    | .absent => (s.checking c.tables).waitFor 6 i (.page (va + c.delta))
    | .ok => f c
/-- ST after the address is known (R350). -/
def State.scalarStore (s : State) (i : Instr) (n : Nat) (d b : SReg) (va : Word) : State :=
  s.storeTarget i n va fun c =>
    (s.storeAt c n ((s.rs d).toNat % 2 ^ (8 * n)) (s.rp d) false).rewriteTo none b [c]

/-- The eight atomic operations (R282, R283). -/
inductive AmoOp where
  | add | and | or | xor | min | max | swap | cas
  deriving DecidableEq, Repr

/-- The value an atomic writes (R283), from the old value and the operand, of `w` bits. -/
def amoNew (op : AmoOp) (w old x : Nat) : Nat :=
  match op with
  | .add => (old + x) % 2 ^ w
  | .and => old &&& x
  | .or => old ||| x
  | .xor => old ^^^ x
  | .min => if sgn w old ≤ sgn w x then old else x
  | .max => if sgn w x ≤ sgn w old then old else x
  | .swap | .cas => x
/-- AMO on `n` bytes (R283): performed at the home; the L1 of its core keeps no copy of the line (R175). -/
def State.amo (s : State) (i : Instr) (op : AmoOp) (n : Nat) (d b : SReg) (imm : Int) : State :=
  let s := s.occupy 6 1
  let va := s.eaImm b imm n
  if op = .cas && d = 63 then s.trapAt 6 0x01 0x09 0
  else
    s.storeTarget i n va fun c =>
      let pa := c.x.pa
      let x := (s.rs d).toNat % 2 ^ (8 * n)
      let cmp := (s.rs (d + 1)).toNat % 2 ^ (8 * n)
      let pts := wmax s.me.pts c.seen
      let gone := s.retired
      let s := s.readLines c.tables
      let r := s.homeLoad none pts c.x.e pa gone
      let q := if cacheable pa then s else (s.portRead pa gone).1
      let old := lineBytes r.data pa n
      let poison := r.poison || s.expired c.x.e (s.sliceStamp c.x.e pa)
      let w :=
        if op = .cas && old ≠ cmp then (r.s, r.pts)
        else
          let k := q.lineStore pts none c.x.e pa n (amoNew op (8 * n) old x) (s.rp d) false
          ((k.1.forgiveWork s.me.work s).l2Mark (pa / 64) true, k.2)
      let s' := (w.1.l1Drop (coreOf s.cur) (pa / 64)).modMe fun k => { k with pts := w.2 }
      let s' := if poison then s'.count else s'
      (s'.outstanding [.scalar d (extendLoad true n old) poison] (s.strict && poison)).rewriteTo (some d) b [c]

/-! Vector loads and stores. -/

/-- The chases of the lines of `bytes` bytes from `va` on. -/
def State.lineChases (s : State) (va : Word) (bytes : Nat) (kind : Access) : List Chased :=
  (List.range ((bytes + 63) / 64)).map fun i => s.chaseMe (va + BitVec.ofNat 64 (64 * i)) kind
/-- A status that some access of a list has. -/
def anyStatus (l : List (Word × Chased)) (st : XStatus) : Option (Word × Chased) := l.find? fun c => c.2.x.st == st
/-- Load each place of a list in order: the state, and for each whether it is absent, whether it is poisoned, and the
bytes from its address to the end of its line. All are one access, before which `gone` were retired (R26). -/
def loadFrom (gone : List Nat) : List Chased → State → State × List (Bool × Bool × Nat)
  | [], s => (s, [])
  | c :: rest, s =>
    match c.x.st with
    | .ok =>
      let r := s.loadAt c gone
      let q := loadFrom gone rest r.s
      (q.1, (false, r.poison, r.data / 2 ^ (8 * (c.x.pa % 64))) :: q.2)
    | .format | .absent | .protect | .hole | .chain =>
      let q := loadFrom gone rest (s.readLines c.tables gone)
      (q.1, (true, false, 0) :: q.2)
def loadAll (cs : List Chased) (s : State) : State × List (Bool × Bool × Nat) := loadFrom s.retired cs s
/-- DeliverVector (R171): the elements, and whether each is absent or poisoned. -/
def State.deliverVector (s : State) (v : VReg) (m : MReg) (data : List Nat) (bad : List Bool) (poison strict : Bool) :
    State :=
  let n := s.tileN
  let all := BitVec.allOnes 8192
  s.outstanding ([tileWrite v s.es n all data] ++
    (if m = 0 then [] else
      [.mask m (BitVec.ofNat 8192 (packBits 1 (bad.map fun b => b2n (!b)))) (selMask n all)])) (strict && poison)
/-- The checks of a vector load, in the order of R320 and R368. -/
def State.vectorChecks (s : State) (l : List (Word × Chased)) (sub : Nat) (f : State) : State :=
  let s := s.checking (l.flatMap fun c => c.2.tables)
  match anyStatus l .hole, anyStatus l .chain, l.find? fun c => c.2.x.st == .format || c.2.x.st == .protect with
  | some _, _, _ => s.fatalAddress
  | none, some c, _ => s.chainTrap (c.1 + c.2.delta) c.2.gens
  | none, none, some c => s.trapAt 6 0x06 sub c.1
  | none, none, none => f
/-- The page that a waiting store of the acting context has asked for. -/
def Ctx.askedPage (c : Ctx) : Word :=
  match c.held with
  | some h => (match h.wait with | .page va => va | .barrier .. | .fa | .planes .. | .timeStep _ | .join _ => 0)
  | none => 0
/-- The checks of a vector store: it waits at the first absent page (R351, R369), and traps where the request for it was
refused: at that page, also where it has become present since (R167). -/
def State.vectorStoreChecks (s : State) (i : Instr) (l : List (Word × Chased)) (f : State) : State :=
  if s.issue.woken = some .refused then
    s.trapAt 6 0x06 0x02 (match anyStatus l .absent with | some c => c.1 | none => s.me.askedPage)
  else
    s.vectorChecks l 0x03
      (match anyStatus l .absent with
        | none => f
        | some c => (s.checking (l.flatMap fun c => c.2.tables)).waitFor 6 i (.page (c.1 + c.2.delta)))
/-- LDV (R320). -/
def execLdv (v : VReg) (b : SReg) (m : MReg) (imm : Int) (s : State) : Host.Outcome State Fault Refusal :=
  let va := s.eaImm b imm 64
  settle s (
    let s := s.occupy 6 1
    if va.toNat % 64 ≠ 0 then s.trapAt 6 0x0B 0x60 va
    else
      let cs := s.lineChases va (shapeBytes s.vshp) .read
      s.vectorChecks (cs.zipIdx.map fun (c, i) => (va + BitVec.ofNat 64 (64 * i), c)) 0x01
        (let r := loadAll cs s
         let at_ (i : Nat) : Bool × Bool × Nat := r.2[i * s.es / 64]?.getD (true, false, 0)
         let data := (List.range s.tileN).map fun i => (at_ i).2.2 / 2 ^ (8 * (i * s.es % 64)) % 2 ^ (8 * s.es)
         let bad := (List.range s.tileN).map fun i => (at_ i).1 || (at_ i).2.1
         (r.1.deliverVector v m data bad (r.2.any fun x => x.2.1) s.strict).rewriteTo none b cs))
/-- Write the masked bytes of line `i` of a tile of `bytes` bytes (R351). `sel` names bytes of the tile. -/
def State.storePortion (s : State) (c : Chased) (v sel bytes i : Nat) : State :=
  let n := Nat.min 64 (bytes - 64 * i)
  let line := c.x.pa / 64 * 64
  let pick := (List.range 64).foldr (fun j acc =>
    (if j < n && sel / 2 ^ (64 * i + j) % 2 = 1 then 255 else 0) + 256 * acc) 0
  let old : BitVec 512 := BitVec.ofNat 512 (loadBytes s.mem line 64)
  let new := mergeBits (BitVec.ofNat 512 pick) old (BitVec.ofNat 512 (v / 2 ^ (512 * i)))
  s.storeAt { c with x := { c.x with pa := line } } 64 new.toNat false (pick + 1 = 2 ^ 512)
    (BitVec.ofNat 64 ((List.range 64).foldr (fun j acc => b2n (j < n && sel / 2 ^ (64 * i + j) % 2 = 1) + 2 * acc) 0))
/-- The byte select of the elements of the tile that a mask admits. -/
def State.tileSel (s : State) (m : MaskVal) : Nat :=
  packBits s.es ((List.range s.tileN).map fun i => if m.getLsbD i then 2 ^ s.es - 1 else 0)
/-- STV (R351). -/
def execStv (v : VReg) (b : SReg) (m : MReg) (imm : Int) (s : State) : Host.Outcome State Fault Refusal :=
  let va := s.eaImm b imm 64
  settle s (
    let s := s.occupy 6 1
    if va.toNat % 64 ≠ 0 then s.trapAt 6 0x0B 0x60 va
    else
      let bytes := shapeBytes s.vshp
      let cs := s.lineChases va bytes .write
      let sel := s.tileSel (s.rm m)
      s.vectorStoreChecks (.stv v b m imm) (cs.zipIdx.map fun (c, i) => (va + BitVec.ofNat 64 (64 * i), c))
        ((cs.zipIdx.foldl (fun (t : State) (c, i) => t.storePortion c (s.rv v).toNat sel bytes i) s).rewriteTo none b cs))
/-- The element addresses of a gather or scatter (R368). -/
def State.elemAddr (s : State) (b : SReg) (scaled : Bool) (x : VReg) (i : Nat) : Word :=
  s.rs b + BitVec.ofNat 64 (elemAt (s.rv x).toNat 4 i * (if scaled then s.es else 1))
/-- VGATHER (R368): the base register is not rewritten. The elements are loaded in ascending order of their index, which R174
does not settle (log entry 121). -/
def execVgather (v : VReg) (b : SReg) (m : MReg) (scaled : Bool) (x : VReg) (s : State) :
    Host.Outcome State Fault Refusal :=
  settle s (
    let s := s.occupy 6 1
    if 2048 < s.tileN then s.trapAt 6 0x0B 0x74 0
    else
      let eas := (List.range s.tileN).map (s.elemAddr b scaled x)
      match eas.find? fun a => a.toNat % s.es ≠ 0 with
      | some a => s.trapAt 6 0x0B 0x60 a
      | none =>
        let cs := eas.map fun a => s.chaseMe a .read
        s.vectorChecks (eas.zip cs) 0x01
          (let r := loadAll cs s
           (r.1.deliverVector v m (r.2.map fun e => e.2.2 % 2 ^ (8 * s.es)) (r.2.map fun e => e.1 || e.2.1)
             (r.2.any fun e => e.2.1) s.strict).chaseHold b cs))
/-- VSCATTER (R369): selected elements in ascending order. -/
def execVscatter (v : VReg) (b : SReg) (m : MReg) (scaled : Bool) (x : VReg) (s : State) :
    Host.Outcome State Fault Refusal :=
  settle s (
    let s := s.occupy 6 1
    if 2048 < s.tileN then s.trapAt 6 0x0B 0x74 0
    else
      let ids := (List.range s.tileN).filter fun i => (s.rm m).getLsbD i
      match ids.find? fun i => (s.elemAddr b scaled x i).toNat % s.es ≠ 0 with
      | some i => s.trapAt 6 0x0B 0x60 (s.elemAddr b scaled x i)
      | none =>
        let cs := ids.map fun i => (s.elemAddr b scaled x i, s.chaseMe (s.elemAddr b scaled x i) .write)
        s.vectorStoreChecks (.vscatter v b m scaled x) cs
          (((ids.zip cs).foldl (fun (t : State) (i, c) =>
            t.storeAt c.2 s.es (elemAt (s.rv v).toNat s.es i) false false) s).chaseHold b (cs.map (·.2))))

/-! PREF and FLUSH take no place in the module order and never trap: no value anywhere depends on them (R314, R332). -/

/-- PREF of the line at an address (R332): ChaseMark, then a fill; its base is held while it chases (R237). -/
def State.prefetch (s : State) (b : SReg) (va : Word) : State :=
  let c := s.chaseMe va .read
  let s := s.readLines c.tables
  let t := match c.x.st with
    | .ok => s.prefill (coreOf s.cur) c.x.e c.x.pa
    | .format | .absent | .protect | .hole | .chain => s
  t.chaseHold b [c]
/-- PREF (R332). -/
def execPref (b : SReg) (imm : Int) (s : State) : Host.Outcome State Fault Refusal :=
  settle s ((s.occupy 6 1).prefetch b (s.eaImm b imm 64))
/-- PREF in the index form (R332). -/
def execPrefIndex (b x : SReg) (g : PReg) (s : State) : Host.Outcome State Fault Refusal :=
  settle s (guarded g (s.occupy 6 1) fun s => s.prefetch b (s.eaIndex b x))
/-- FLUSH of the line at an address (R314): it is written back from the core's L1, then from its slice, and the copies stay
valid and clean; what they hold is the memory of the state already (log entry 8). Where the chase ends at no line nothing
happens. The base is held while it chases (R237). -/
def State.flushLine (s : State) (b : SReg) (va : Word) : State :=
  let c := s.chaseMe (va &&& ~~~63#64) .read
  let t := s.readLines c.tables
  let u := match c.x.st with
    | .ok =>
      { t with l1 := t.l1.map fun (k : L1Copy) =>
          if k.core = coreOf s.cur && k.line = c.x.pa / 64 then { k with dirty := false } else k }.l2Mark (c.x.pa / 64) false
    | .format | .absent | .protect | .hole | .chain => t
  u.chaseHold b [c]
/-- FLUSH (R314). -/
def execFlush (b : SReg) (imm : Int) (s : State) : Host.Outcome State Fault Refusal :=
  settle s ((s.occupy 6 1).flushLine b (s.eaImm b imm 64))

/-! The scalar forms. -/

/-- LD.i8, immediate form: the residency is reported in p7 (R63, R318). -/
def execLdI8 (d b : SReg) (imm : Int) (s : State) : Host.Outcome State Fault Refusal :=
  settle s (s.scalarLoad false true 1 d b 7 (s.eaImm b imm 1))
/-- LD.i8, index form (R63, R318). -/
def execLdI8Index (d b x : SReg) (p : PReg) (s : State) : Host.Outcome State Fault Refusal :=
  settle s (s.scalarLoad false true 1 d b p (s.eaIndex b x))
/-- LD.u8, immediate form: the residency is reported in p7 (R63, R318). -/
def execLdU8 (d b : SReg) (imm : Int) (s : State) : Host.Outcome State Fault Refusal :=
  settle s (s.scalarLoad false false 1 d b 7 (s.eaImm b imm 1))
/-- LD.u8, index form (R63, R318). -/
def execLdU8Index (d b x : SReg) (p : PReg) (s : State) : Host.Outcome State Fault Refusal :=
  settle s (s.scalarLoad false false 1 d b p (s.eaIndex b x))
/-- LD.i16, immediate form: the residency is reported in p7 (R63, R318). -/
def execLdI16 (d b : SReg) (imm : Int) (s : State) : Host.Outcome State Fault Refusal :=
  settle s (s.scalarLoad false true 2 d b 7 (s.eaImm b imm 2))
/-- LD.i16, index form (R63, R318). -/
def execLdI16Index (d b x : SReg) (p : PReg) (s : State) : Host.Outcome State Fault Refusal :=
  settle s (s.scalarLoad false true 2 d b p (s.eaIndex b x))
/-- LD.i32, immediate form: the residency is reported in p7 (R63, R318). -/
def execLdI32 (d b : SReg) (imm : Int) (s : State) : Host.Outcome State Fault Refusal :=
  settle s (s.scalarLoad false true 4 d b 7 (s.eaImm b imm 4))
/-- LD.i32, index form (R63, R318). -/
def execLdI32Index (d b x : SReg) (p : PReg) (s : State) : Host.Outcome State Fault Refusal :=
  settle s (s.scalarLoad false true 4 d b p (s.eaIndex b x))
/-- LD.i64, immediate form: the residency is reported in p7 (R63, R318). -/
def execLdI64 (d b : SReg) (imm : Int) (s : State) : Host.Outcome State Fault Refusal :=
  settle s (s.scalarLoad false true 8 d b 7 (s.eaImm b imm 8))
/-- LD.i64, index form (R63, R318). -/
def execLdI64Index (d b x : SReg) (p : PReg) (s : State) : Host.Outcome State Fault Refusal :=
  settle s (s.scalarLoad false true 8 d b p (s.eaIndex b x))
/-- LDS.i8, immediate form: the residency is reported in p7 (R63, R319). -/
def execLdsI8 (d b : SReg) (imm : Int) (s : State) : Host.Outcome State Fault Refusal :=
  settle s (s.scalarLoad true true 1 d b 7 (s.eaImm b imm 1))
/-- LDS.i8, index form (R63, R319). -/
def execLdsI8Index (d b x : SReg) (p : PReg) (s : State) : Host.Outcome State Fault Refusal :=
  settle s (s.scalarLoad true true 1 d b p (s.eaIndex b x))
/-- LDS.u8, immediate form: the residency is reported in p7 (R63, R319). -/
def execLdsU8 (d b : SReg) (imm : Int) (s : State) : Host.Outcome State Fault Refusal :=
  settle s (s.scalarLoad true false 1 d b 7 (s.eaImm b imm 1))
/-- LDS.u8, index form (R63, R319). -/
def execLdsU8Index (d b x : SReg) (p : PReg) (s : State) : Host.Outcome State Fault Refusal :=
  settle s (s.scalarLoad true false 1 d b p (s.eaIndex b x))
/-- LDS.i16, immediate form: the residency is reported in p7 (R63, R319). -/
def execLdsI16 (d b : SReg) (imm : Int) (s : State) : Host.Outcome State Fault Refusal :=
  settle s (s.scalarLoad true true 2 d b 7 (s.eaImm b imm 2))
/-- LDS.i16, index form (R63, R319). -/
def execLdsI16Index (d b x : SReg) (p : PReg) (s : State) : Host.Outcome State Fault Refusal :=
  settle s (s.scalarLoad true true 2 d b p (s.eaIndex b x))
/-- LDS.i32, immediate form: the residency is reported in p7 (R63, R319). -/
def execLdsI32 (d b : SReg) (imm : Int) (s : State) : Host.Outcome State Fault Refusal :=
  settle s (s.scalarLoad true true 4 d b 7 (s.eaImm b imm 4))
/-- LDS.i32, index form (R63, R319). -/
def execLdsI32Index (d b x : SReg) (p : PReg) (s : State) : Host.Outcome State Fault Refusal :=
  settle s (s.scalarLoad true true 4 d b p (s.eaIndex b x))
/-- LDS.i64, immediate form: the residency is reported in p7 (R63, R319). -/
def execLdsI64 (d b : SReg) (imm : Int) (s : State) : Host.Outcome State Fault Refusal :=
  settle s (s.scalarLoad true true 8 d b 7 (s.eaImm b imm 8))
/-- LDS.i64, index form (R63, R319). -/
def execLdsI64Index (d b x : SReg) (p : PReg) (s : State) : Host.Outcome State Fault Refusal :=
  settle s (s.scalarLoad true true 8 d b p (s.eaIndex b x))
/-- ST.i8, immediate form (R350). -/
def execStI8 (d b : SReg) (imm : Int) (s : State) : Host.Outcome State Fault Refusal :=
  settle s ((s.occupy 6 1).scalarStore (.stI8 d b imm) 1 d b (s.eaImm b imm 1))
/-- ST.i8, index form, under its guard (R350). -/
def execStI8Index (d b x : SReg) (g : PReg) (s : State) : Host.Outcome State Fault Refusal :=
  settle s (guarded g (s.occupy 6 1) fun s => s.scalarStore (.stI8Index d b x g) 1 d b (s.eaIndex b x))
/-- ST.i16, immediate form (R350). -/
def execStI16 (d b : SReg) (imm : Int) (s : State) : Host.Outcome State Fault Refusal :=
  settle s ((s.occupy 6 1).scalarStore (.stI16 d b imm) 2 d b (s.eaImm b imm 2))
/-- ST.i16, index form, under its guard (R350). -/
def execStI16Index (d b x : SReg) (g : PReg) (s : State) : Host.Outcome State Fault Refusal :=
  settle s (guarded g (s.occupy 6 1) fun s => s.scalarStore (.stI16Index d b x g) 2 d b (s.eaIndex b x))
/-- ST.i32, immediate form (R350). -/
def execStI32 (d b : SReg) (imm : Int) (s : State) : Host.Outcome State Fault Refusal :=
  settle s ((s.occupy 6 1).scalarStore (.stI32 d b imm) 4 d b (s.eaImm b imm 4))
/-- ST.i32, index form, under its guard (R350). -/
def execStI32Index (d b x : SReg) (g : PReg) (s : State) : Host.Outcome State Fault Refusal :=
  settle s (guarded g (s.occupy 6 1) fun s => s.scalarStore (.stI32Index d b x g) 4 d b (s.eaIndex b x))
/-- ST.i64, immediate form (R350). -/
def execStI64 (d b : SReg) (imm : Int) (s : State) : Host.Outcome State Fault Refusal :=
  settle s ((s.occupy 6 1).scalarStore (.stI64 d b imm) 8 d b (s.eaImm b imm 8))
/-- ST.i64, index form, under its guard (R350). -/
def execStI64Index (d b x : SReg) (g : PReg) (s : State) : Host.Outcome State Fault Refusal :=
  settle s (guarded g (s.occupy 6 1) fun s => s.scalarStore (.stI64Index d b x g) 8 d b (s.eaIndex b x))
/-- AMO.ADD.i64 (R283). -/
def execAmoAddI64 (d b : SReg) (imm : Int) (s : State) : Host.Outcome State Fault Refusal :=
  settle s (s.amo (.amoAddI64 d b imm) .add 8 d b imm)
/-- AMO.ADD.i32 (R283). -/
def execAmoAddI32 (d b : SReg) (imm : Int) (s : State) : Host.Outcome State Fault Refusal :=
  settle s (s.amo (.amoAddI32 d b imm) .add 4 d b imm)
/-- AMO.AND.i64 (R283). -/
def execAmoAndI64 (d b : SReg) (imm : Int) (s : State) : Host.Outcome State Fault Refusal :=
  settle s (s.amo (.amoAndI64 d b imm) .and 8 d b imm)
/-- AMO.AND.i32 (R283). -/
def execAmoAndI32 (d b : SReg) (imm : Int) (s : State) : Host.Outcome State Fault Refusal :=
  settle s (s.amo (.amoAndI32 d b imm) .and 4 d b imm)
/-- AMO.OR.i64 (R283). -/
def execAmoOrI64 (d b : SReg) (imm : Int) (s : State) : Host.Outcome State Fault Refusal :=
  settle s (s.amo (.amoOrI64 d b imm) .or 8 d b imm)
/-- AMO.OR.i32 (R283). -/
def execAmoOrI32 (d b : SReg) (imm : Int) (s : State) : Host.Outcome State Fault Refusal :=
  settle s (s.amo (.amoOrI32 d b imm) .or 4 d b imm)
/-- AMO.XOR.i64 (R283). -/
def execAmoXorI64 (d b : SReg) (imm : Int) (s : State) : Host.Outcome State Fault Refusal :=
  settle s (s.amo (.amoXorI64 d b imm) .xor 8 d b imm)
/-- AMO.XOR.i32 (R283). -/
def execAmoXorI32 (d b : SReg) (imm : Int) (s : State) : Host.Outcome State Fault Refusal :=
  settle s (s.amo (.amoXorI32 d b imm) .xor 4 d b imm)
/-- AMO.MIN.i64 (R283). -/
def execAmoMinI64 (d b : SReg) (imm : Int) (s : State) : Host.Outcome State Fault Refusal :=
  settle s (s.amo (.amoMinI64 d b imm) .min 8 d b imm)
/-- AMO.MIN.i32 (R283). -/
def execAmoMinI32 (d b : SReg) (imm : Int) (s : State) : Host.Outcome State Fault Refusal :=
  settle s (s.amo (.amoMinI32 d b imm) .min 4 d b imm)
/-- AMO.MAX.i64 (R283). -/
def execAmoMaxI64 (d b : SReg) (imm : Int) (s : State) : Host.Outcome State Fault Refusal :=
  settle s (s.amo (.amoMaxI64 d b imm) .max 8 d b imm)
/-- AMO.MAX.i32 (R283). -/
def execAmoMaxI32 (d b : SReg) (imm : Int) (s : State) : Host.Outcome State Fault Refusal :=
  settle s (s.amo (.amoMaxI32 d b imm) .max 4 d b imm)
/-- AMO.SWAP.i64 (R283). -/
def execAmoSwapI64 (d b : SReg) (imm : Int) (s : State) : Host.Outcome State Fault Refusal :=
  settle s (s.amo (.amoSwapI64 d b imm) .swap 8 d b imm)
/-- AMO.SWAP.i32 (R283). -/
def execAmoSwapI32 (d b : SReg) (imm : Int) (s : State) : Host.Outcome State Fault Refusal :=
  settle s (s.amo (.amoSwapI32 d b imm) .swap 4 d b imm)
/-- AMO.CAS.i64 (R283). -/
def execAmoCasI64 (d b : SReg) (imm : Int) (s : State) : Host.Outcome State Fault Refusal :=
  settle s (s.amo (.amoCasI64 d b imm) .cas 8 d b imm)
/-- AMO.CAS.i32 (R283). -/
def execAmoCasI32 (d b : SReg) (imm : Int) (s : State) : Host.Outcome State Fault Refusal :=
  settle s (s.amo (.amoCasI32 d b imm) .cas 4 d b imm)

end Sys2Proof.Machine
end

