-- ==== Sys2Proof/Machine/Mem1.lean ====
section
/-! DEFINITION. M1 instructions: scalar, vector, transposing and scale accesses to the scratchpad banks of the cluster
(R66, R67, R151, R172, R340 to R344). -/

namespace Sys2Proof.Machine

/-- The byte offset of an immediate form (R340). -/
def offImm (off : Nat) : Nat := off * 64
/-- The byte offset of a register-offset form, taken exactly (R340). -/
def State.offReg (s : State) (x : SReg) (off : Nat) : Nat := (s.rs x).toNat + off * 64
/-- The checks of R340 on `n` bytes of a bank at an offset, aligned to `al`. -/
def State.bankAccess (s : State) (bank off n al : Nat) (f : State) : State :=
  match s.bankFault bank off n with
  | some sub => s.trapAt 7 0x03 sub 0
  | none => if off % al ≠ 0 then s.trapAt 7 0x0B 0x60 0 else f
/-- A strict-ECC trap of an M1 load falls due when its result becomes visible (R172). -/
def State.eccDue (s : State) (lat : Nat) (poison : Bool) : State :=
  if poison && s.me.memctl.getLsbD 0 then s.modMe fun c => { c with ecc := c.ecc ++ [s.cycle + lat] } else s
/-- SLD (R341). -/
def State.bankLoad (s : State) (sg : Bool) (n : Nat) (d : SReg) (bank off : Nat) : State :=
  let s := s.occupy 7 1
  s.bankAccess bank off n n
    (let r := s.bankRead s.myCluster bank off n false
     (r.1.result 7 3 (.scalar d (if sg then BitVec.ofInt 64 (sgn (8 * n) r.2.1) else BitVec.ofNat 64 r.2.1) r.2.2)).eccDue
       3 r.2.2)
/-- SST (R341). -/
def State.bankStore (s : State) (n : Nat) (d : SReg) (bank off : Nat) : State :=
  let s := s.occupy 7 1
  s.bankAccess bank off n n
    ((s.bankWrite s.myCluster bank off n ((s.rs d).toNat % 2 ^ (8 * n)) (s.rp d) false false).forgiveWork s.me.work s)
/-- Beats of an M1 tile access at 1 KiB (R71). -/
def bankBeats (bytes : Nat) : Nat := (bytes + 1023) / 1024
/-- SLDV and SLDT: `f` gives the elements of the tile from the bytes read (R343, R344). -/
def State.bankLoadTile (s : State) (v : VReg) (bank off : Nat) (f : Nat → List Nat) : State :=
  let bytes := shapeBytes s.vshp
  let beats := bankBeats bytes
  let s := s.occupy 7 beats
  s.bankAccess bank off bytes 64
    (let r := s.bankRead s.myCluster bank off bytes false
     (r.1.result 7 (4 + beats) (tileWrite v s.es s.tileN (BitVec.allOnes 8192) (f r.2.1))).eccDue (4 + beats) r.2.2)
/-- The tile of an SLDV. -/
def State.plainTile (s : State) (data : Nat) : List Nat := (List.range s.tileN).map fun i => elemAt data s.es i
/-- The tile of an SLDT: element (r, c) is element (c, r) of the source of cols rows (R343). -/
def State.transTile (s : State) (data : Nat) : List Nat :=
  let rows := shapeRows s.vshp
  let cols := shapeCols s.vshp
  (List.range s.tileN).map fun i => elemAt data s.es (i % cols * rows + i / cols)
/-- SSTV (R344). -/
def State.bankStoreTile (s : State) (v : VReg) (bank off : Nat) : State :=
  let bytes := shapeBytes s.vshp
  let s := s.occupy 7 (bankBeats bytes)
  s.bankAccess bank off bytes 64
    ((s.bankWrite s.myCluster bank off bytes ((s.rv v).toNat % 2 ^ (8 * bytes)) false true false).forgiveWork s.me.work s)
/-- SLDS (R342). -/
def State.bankLoadScales (s : State) (e : EReg) (bank off : Nat) : State :=
  let s := s.occupy 7 1
  s.bankAccess bank off 64 64
    (let r := s.bankRead s.myCluster bank off 64 false
     (r.1.result 7 3 (.scale e (BitVec.ofNat 512 r.2.1))).eccDue 3 r.2.2)

/-- SLD.i8 (R341). -/
def execSldI8 (d : SReg) (bank : Bank) (off : Nat) (s : State) : Host.Outcome State Fault Refusal :=
  settle s (s.bankLoad true 1 d bank.val (offImm off))
/-- SLD.i8 (R341), register-offset form. -/
def execSldI8Regoff (d : SReg) (bank : Bank) (x : SReg) (off : Nat) (s : State) : Host.Outcome State Fault Refusal :=
  settle s (s.bankLoad true 1 d bank.val (s.offReg x off))
/-- SLD.u8 (R341). -/
def execSldU8 (d : SReg) (bank : Bank) (off : Nat) (s : State) : Host.Outcome State Fault Refusal :=
  settle s (s.bankLoad false 1 d bank.val (offImm off))
/-- SLD.u8 (R341), register-offset form. -/
def execSldU8Regoff (d : SReg) (bank : Bank) (x : SReg) (off : Nat) (s : State) : Host.Outcome State Fault Refusal :=
  settle s (s.bankLoad false 1 d bank.val (s.offReg x off))
/-- SLD.i16 (R341). -/
def execSldI16 (d : SReg) (bank : Bank) (off : Nat) (s : State) : Host.Outcome State Fault Refusal :=
  settle s (s.bankLoad true 2 d bank.val (offImm off))
/-- SLD.i16 (R341), register-offset form. -/
def execSldI16Regoff (d : SReg) (bank : Bank) (x : SReg) (off : Nat) (s : State) : Host.Outcome State Fault Refusal :=
  settle s (s.bankLoad true 2 d bank.val (s.offReg x off))
/-- SLD.i32 (R341). -/
def execSldI32 (d : SReg) (bank : Bank) (off : Nat) (s : State) : Host.Outcome State Fault Refusal :=
  settle s (s.bankLoad true 4 d bank.val (offImm off))
/-- SLD.i32 (R341), register-offset form. -/
def execSldI32Regoff (d : SReg) (bank : Bank) (x : SReg) (off : Nat) (s : State) : Host.Outcome State Fault Refusal :=
  settle s (s.bankLoad true 4 d bank.val (s.offReg x off))
/-- SLD.i64 (R341). -/
def execSldI64 (d : SReg) (bank : Bank) (off : Nat) (s : State) : Host.Outcome State Fault Refusal :=
  settle s (s.bankLoad true 8 d bank.val (offImm off))
/-- SLD.i64 (R341), register-offset form. -/
def execSldI64Regoff (d : SReg) (bank : Bank) (x : SReg) (off : Nat) (s : State) : Host.Outcome State Fault Refusal :=
  settle s (s.bankLoad true 8 d bank.val (s.offReg x off))
/-- SST.i8 (R341). -/
def execSstI8 (d : SReg) (bank : Bank) (off : Nat) (s : State) : Host.Outcome State Fault Refusal :=
  settle s (s.bankStore 1 d bank.val (offImm off))
/-- SST.i8 (R341), register-offset form. -/
def execSstI8Regoff (d : SReg) (bank : Bank) (x : SReg) (off : Nat) (s : State) : Host.Outcome State Fault Refusal :=
  settle s (s.bankStore 1 d bank.val (s.offReg x off))
/-- SST.i16 (R341). -/
def execSstI16 (d : SReg) (bank : Bank) (off : Nat) (s : State) : Host.Outcome State Fault Refusal :=
  settle s (s.bankStore 2 d bank.val (offImm off))
/-- SST.i16 (R341), register-offset form. -/
def execSstI16Regoff (d : SReg) (bank : Bank) (x : SReg) (off : Nat) (s : State) : Host.Outcome State Fault Refusal :=
  settle s (s.bankStore 2 d bank.val (s.offReg x off))
/-- SST.i32 (R341). -/
def execSstI32 (d : SReg) (bank : Bank) (off : Nat) (s : State) : Host.Outcome State Fault Refusal :=
  settle s (s.bankStore 4 d bank.val (offImm off))
/-- SST.i32 (R341), register-offset form. -/
def execSstI32Regoff (d : SReg) (bank : Bank) (x : SReg) (off : Nat) (s : State) : Host.Outcome State Fault Refusal :=
  settle s (s.bankStore 4 d bank.val (s.offReg x off))
/-- SST.i64 (R341). -/
def execSstI64 (d : SReg) (bank : Bank) (off : Nat) (s : State) : Host.Outcome State Fault Refusal :=
  settle s (s.bankStore 8 d bank.val (offImm off))
/-- SST.i64 (R341), register-offset form. -/
def execSstI64Regoff (d : SReg) (bank : Bank) (x : SReg) (off : Nat) (s : State) : Host.Outcome State Fault Refusal :=
  settle s (s.bankStore 8 d bank.val (s.offReg x off))
/-- SLDV (R344). -/
def execSldv (v : VReg) (bank : Bank) (off : Nat) (s : State) : Host.Outcome State Fault Refusal :=
  settle s (s.bankLoadTile v bank.val (offImm off) s.plainTile)
/-- SLDV (R344), register-offset form. -/
def execSldvRegoff (v : VReg) (bank : Bank) (x : SReg) (off : Nat) (s : State) : Host.Outcome State Fault Refusal :=
  settle s (s.bankLoadTile v bank.val (s.offReg x off) s.plainTile)
/-- SSTV (R344). -/
def execSstv (v : VReg) (bank : Bank) (off : Nat) (s : State) : Host.Outcome State Fault Refusal :=
  settle s (s.bankStoreTile v bank.val (offImm off))
/-- SSTV (R344), register-offset form. -/
def execSstvRegoff (v : VReg) (bank : Bank) (x : SReg) (off : Nat) (s : State) : Host.Outcome State Fault Refusal :=
  settle s (s.bankStoreTile v bank.val (s.offReg x off))
/-- SLDT (R343). -/
def execSldt (v : VReg) (bank : Bank) (off : Nat) (s : State) : Host.Outcome State Fault Refusal :=
  settle s (s.bankLoadTile v bank.val (offImm off) s.transTile)
/-- SLDT (R343), register-offset form. -/
def execSldtRegoff (v : VReg) (bank : Bank) (x : SReg) (off : Nat) (s : State) : Host.Outcome State Fault Refusal :=
  settle s (s.bankLoadTile v bank.val (s.offReg x off) s.transTile)
/-- SLDS (R342). -/
def execSlds (e : EReg) (bank : Bank) (off : Nat) (s : State) : Host.Outcome State Fault Refusal :=
  settle s (s.bankLoadScales e bank.val (offImm off))
/-- SLDS (R342), register-offset form. -/
def execSldsRegoff (e : EReg) (bank : Bank) (x : SReg) (off : Nat) (s : State) : Host.Outcome State Fault Refusal :=
  settle s (s.bankLoadScales e bank.val (s.offReg x off))

end Sys2Proof.Machine
end

