-- ==== Sys2Proof/Machine/System.lean ====
section
/-! DEFINITION. SYSR, SYSW, TSREAD and the system-register rows of the table that are read or written alone (R83, R99,
R101, R112, R168, R181, R205, R352, R353, R359). -/

namespace Sys2Proof.Machine

/-- Registers that trap in user mode (R352). -/
def sysPrivileged : SysReg → Bool
  | .tsctl | .fampst | .ptroot | .arosel | .arolo | .arohi | .tvec | .svpool | .svcur | .stkerr => true
  | .vyrev | .vyfeat | .ctxid | .gidx | .dswid | .dsdrop | .tslate | .efr | .srkey | .srorg | .fatab | .memctl
  | .cseq | .ceerr => false
/-- The value that SYSR returns (R352, R353). -/
def State.sysr (s : State) (r : SysReg) : Word :=
  match r with
  | .vyrev => Config.vyrev
  | .vyfeat => Config.vyfeat
  | .ctxid => s.ctxid s.cur
  | .gidx => s.me.gidx
  | .dswid => s.me.wid.setWidth 64
  | .dsdrop => s.me.dsdrop.setWidth 64
  | .tsctl => s.tsctl
  | .tslate => s.me.tslate.setWidth 64
  | .efr => s.me.efr
  | .srkey => s.me.srkey
  | .srorg => s.me.srorg
  | .fatab => s.me.fatab
  | .fampst => s.me.fampst
  | .ptroot => s.me.ptroot
  | .memctl => s.me.memctl
  | .arosel => s.arosel.setWidth 64
  | .arolo => s.aroTable[Fin.ofNat 64 s.arosel.toNat].extractLsb' 0 64
  | .arohi => s.aroTable[Fin.ofNat 64 s.arosel.toNat].extractLsb' 64 64
  | .cseq => s.me.cseq.setWidth 64
  | .ceerr => s.me.ceerr
  | .tvec => s.tvec
  | .svpool => (s.cluster s.myCluster).svbase ||| BitVec.ofNat 64 (s.cluster s.myCluster).freeCount
  | .svcur => s.me.svcur
  | .stkerr => s.stkerr
/-- A read of `v` clears TSLATE and DSDROP (R7, R83, R181): it takes the count that it returns (R353). -/
def Ctx.readClear (c : Ctx) (r : SysReg) (v : Word) : Ctx :=
  match r with
  | .tslate => { c with tslate := c.tslate - v.setWidth 32 }
  | .dsdrop => { c with dsdrop := c.dsdrop - v.setWidth 32 }
  | .vyrev | .vyfeat | .ctxid | .gidx | .dswid | .tsctl | .efr | .srkey | .srorg | .fatab | .fampst | .ptroot
  | .memctl | .arosel | .arolo | .arohi | .cseq | .ceerr | .tvec | .svpool | .svcur | .stkerr => c
/-- SYSR (R353). It returns the register as it stands at its issue, also where its bundle waits (R381); a read-clear
field then keeps what it has counted since. -/
def execSysr (d : SReg) (r : SysReg) (s : State) : Host.Outcome State Fault Refusal :=
  let v := s.readNow 0 (s.sysr r)
  settle s (if sysPrivileged r && !s.me.priv then s.trapAt 0 0x01 0x0A 0
    else (((s.occupy 0 1).result 0 3 (.scalar d v false)).noteRead 0 v).modMe fun c => c.readClear r v)
/-- SYSW binds the bundles after its own (R353). -/
def execSysw (a : SReg) (r : SysReg) (s : State) : Host.Outcome State Fault Refusal :=
  settle s (if sysPrivileged r && !s.me.priv then s.trapAt 0 0x01 0x0A 0
    else { s.occupy 0 1 with issue := { s.issue with sysw := s.issue.sysw ++ [(r, s.rs a)] } })
/-- TSREAD (R359). -/
def execTsread (d : SReg) (g : PReg) (s : State) : Host.Outcome State Fault Refusal :=
  let v := s.readNow 0 s.timeStep
  settle s (guarded g (s.occupy 0 1) fun s => (s.result 0 3 (.scalar d v false)).noteRead 0 v)

/-! Rows of the table for one register alone. Each is the effect of its SYSW or SYSR on the acting context. -/

/-- STKERR_CLEAR (R25). -/
def execStkerrClear (s : State) : Host.Outcome State Fault Refusal := .next (s.sysw .stkerr (BitVec.ofNat 64 (2 ^ 63)))
/-- CEERR_CLEAR (R205). -/
def execCeerrClear (s : State) : Host.Outcome State Fault Refusal := .next (s.sysw .ceerr (BitVec.ofNat 64 (2 ^ 63)))
/-- EFR_WRITE (R112). -/
def execEfrWrite (x : Word) (s : State) : Host.Outcome State Fault Refusal := .next (s.sysw .efr x)
/-- TSCTL_WRITE (R101). -/
def execTsctlWrite (x : Word) (s : State) : Host.Outcome State Fault Refusal := .next (s.sysw .tsctl x)
/-- OWNERSHIP_TABLE_WRITE (R168). -/
def execOwnershipTableWrite (hi : Bool) (x : Word) (s : State) : Host.Outcome State Fault Refusal :=
  .next (s.sysw (if hi then .arohi else .arolo) x)
/-- TSLATE_READ_CLEAR (R83). -/
def execTslateReadClear (d : SReg) (s : State) : Host.Outcome State Fault Refusal :=
  .next ((s.result 0 3 (.scalar d (s.sysr .tslate) false)).modMe fun c => c.readClear .tslate (s.sysr .tslate))
/-- DSDROP_READ_CLEAR (R181). -/
def execDsdropReadClear (d : SReg) (s : State) : Host.Outcome State Fault Refusal :=
  .next ((s.result 0 3 (.scalar d (s.sysr .dsdrop) false)).modMe fun c => c.readClear .dsdrop (s.sysr .dsdrop))

end Sys2Proof.Machine
end

