-- ==== Sys2Proof/Machine/Dispatch.lean ====
section
/-! DEFINITION. The dispatch: one arm for each row of the opcode table. -/

namespace Sys2Proof.Machine

def exec (i : Instr) (s : State) : Host.Outcome State Fault Refusal :=
  match i with
  | .add d a b g => Sys2Proof.Machine.execAdd d a b g s
  | .sub d a b g => Sys2Proof.Machine.execSub d a b g s
  | .and d a b g => Sys2Proof.Machine.execAnd d a b g s
  | .or d a b g => Sys2Proof.Machine.execOr d a b g s
  | .xor d a b g => Sys2Proof.Machine.execXor d a b g s
  | .shl d a b g => Sys2Proof.Machine.execShl d a b g s
  | .shr d a b g => Sys2Proof.Machine.execShr d a b g s
  | .shra d a b g => Sys2Proof.Machine.execShra d a b g s
  | .rot d a b g => Sys2Proof.Machine.execRot d a b g s
  | .mul d a b g => Sys2Proof.Machine.execMul d a b g s
  | .mulh d a b g => Sys2Proof.Machine.execMulh d a b g s
  | .div d a b g => Sys2Proof.Machine.execDiv d a b g s
  | .rem d a b g => Sys2Proof.Machine.execRem d a b g s
  | .max d a b g => Sys2Proof.Machine.execMax d a b g s
  | .min d a b g => Sys2Proof.Machine.execMin d a b g s
  | .sel d a b p => Sys2Proof.Machine.execSel d a b p s
  | .clz d a g => Sys2Proof.Machine.execClz d a g s
  | .popc d a g => Sys2Proof.Machine.execPopc d a g s
  | .ext d a b g => Sys2Proof.Machine.execExt d a b g s
  | .ins d a b g => Sys2Proof.Machine.execIns d a b g s
  | .plog d a fn b g => Sys2Proof.Machine.execPlog d a fn b g s
  | .fadd d a b g => Sys2Proof.Machine.execFadd d a b g s
  | .fmul d a b g => Sys2Proof.Machine.execFmul d a b g s
  | .ffma d a b g => Sys2Proof.Machine.execFfma d a b g s
  | .fcmpEq d a b g => Sys2Proof.Machine.execFcmpEq d a b g s
  | .fcmpLt d a b g => Sys2Proof.Machine.execFcmpLt d a b g s
  | .fcmpLe d a b g => Sys2Proof.Machine.execFcmpLe d a b g s
  | .fcmpUn d a b g => Sys2Proof.Machine.execFcmpUn d a b g s
  | .fcvt d a cv rm sat g => Sys2Proof.Machine.execFcvt d a cv rm sat g s
  | .tsread d g => Sys2Proof.Machine.execTsread d g s
  | .jr a g => Sys2Proof.Machine.execJr a g s
  | .ret g => Sys2Proof.Machine.execRet g s
  | .cmpEq d a b g => Sys2Proof.Machine.execCmpEq d a b g s
  | .cmpNe d a b g => Sys2Proof.Machine.execCmpNe d a b g s
  | .cmpLt d a b g => Sys2Proof.Machine.execCmpLt d a b g s
  | .cmpLe d a b g => Sys2Proof.Machine.execCmpLe d a b g s
  | .cmpLtu d a b g => Sys2Proof.Machine.execCmpLtu d a b g s
  | .cmpLeu d a b g => Sys2Proof.Machine.execCmpLeu d a b g s
  | .nop g => Sys2Proof.Machine.execNop g s
  | .halt g => Sys2Proof.Machine.execHalt g s
  | .eret g => Sys2Proof.Machine.execEret g s
  | .lbrk g => Sys2Proof.Machine.execLbrk g s
  | .addi d a imm => Sys2Proof.Machine.execAddi d a imm s
  | .andi d a imm => Sys2Proof.Machine.execAndi d a imm s
  | .ori d a imm => Sys2Proof.Machine.execOri d a imm s
  | .xori d a imm => Sys2Proof.Machine.execXori d a imm s
  | .li d imm => Sys2Proof.Machine.execLi d imm s
  | .lih d imm => Sys2Proof.Machine.execLih d imm s
  | .trap code => Sys2Proof.Machine.execTrap code s
  | .chk a imm => Sys2Proof.Machine.execChk a imm s
  | .sysr d r => Sys2Proof.Machine.execSysr d r s
  | .sysw a r => Sys2Proof.Machine.execSysw a r s
  | .loop c len => Sys2Proof.Machine.execLoop c len s
  | .loopi count len => Sys2Proof.Machine.execLoopi count len s
  | .cmpiEq d a imm => Sys2Proof.Machine.execCmpiEq d a imm s
  | .cmpiNe d a imm => Sys2Proof.Machine.execCmpiNe d a imm s
  | .cmpiLt d a imm => Sys2Proof.Machine.execCmpiLt d a imm s
  | .cmpiLe d a imm => Sys2Proof.Machine.execCmpiLe d a imm s
  | .cmpiLtu d a imm => Sys2Proof.Machine.execCmpiLtu d a imm s
  | .cmpiLeu d a imm => Sys2Proof.Machine.execCmpiLeu d a imm s
  | .br neg p disp => Sys2Proof.Machine.execBr neg p disp s
  | .j disp => Sys2Proof.Machine.execJ disp s
  | .call disp => Sys2Proof.Machine.execCall disp s
  | .vadd d a b fmt m => Sys2Proof.Machine.execVadd d a b fmt m s
  | .vsub d a b fmt m => Sys2Proof.Machine.execVsub d a b fmt m s
  | .vmul d a b fmt m => Sys2Proof.Machine.execVmul d a b fmt m s
  | .vfma d a b fmt m => Sys2Proof.Machine.execVfma d a b fmt m s
  | .vmax d a b fmt m => Sys2Proof.Machine.execVmax d a b fmt m s
  | .vmin d a b fmt m => Sys2Proof.Machine.execVmin d a b fmt m s
  | .vabs d a fmt m => Sys2Proof.Machine.execVabs d a fmt m s
  | .vneg d a fmt m => Sys2Proof.Machine.execVneg d a fmt m s
  | .vand d a b fmt m => Sys2Proof.Machine.execVand d a b fmt m s
  | .vor d a b fmt m => Sys2Proof.Machine.execVor d a b fmt m s
  | .vxor d a b fmt m => Sys2Proof.Machine.execVxor d a b fmt m s
  | .vshl d a b fmt m => Sys2Proof.Machine.execVshl d a b fmt m s
  | .vshr d a b fmt m => Sys2Proof.Machine.execVshr d a b fmt m s
  | .vsel d a b fmt sr => Sys2Proof.Machine.execVsel d a b fmt sr s
  | .vmov d a fmt m => Sys2Proof.Machine.execVmov d a fmt m s
  | .vcvt d a sat rm fmt m => Sys2Proof.Machine.execVcvt d a sat rm fmt m s
  | .vcmpEq d a b fmt m => Sys2Proof.Machine.execVcmpEq d a b fmt m s
  | .vcmpNe d a b fmt m => Sys2Proof.Machine.execVcmpNe d a b fmt m s
  | .vcmpLt d a b fmt m => Sys2Proof.Machine.execVcmpLt d a b fmt m s
  | .vcmpLe d a b fmt m => Sys2Proof.Machine.execVcmpLe d a b fmt m s
  | .vred d a op fmt m => Sys2Proof.Machine.execVred d a op fmt m s
  | .vredc d a op fmt m => Sys2Proof.Machine.execVredc d a op fmt m s
  | .vscan d a op fmt m => Sys2Proof.Machine.execVscan d a op fmt m s
  | .vtrans d a fmt m => Sys2Proof.Machine.execVtrans d a fmt m s
  | .vperm d a b fmt m => Sys2Proof.Machine.execVperm d a b fmt m s
  | .vpack d a rm pk fmt m => Sys2Proof.Machine.execVpack d a rm pk fmt m s
  | .vunpk d a rm pk fmt m => Sys2Proof.Machine.execVunpk d a rm pk fmt m s
  | .vexpd d a fmt m => Sys2Proof.Machine.execVexpd d a fmt m s
  | .vpush fifoB a fmt => Sys2Proof.Machine.execVpush fifoB a fmt s
  | .mlog d a b fn m => Sys2Proof.Machine.execMlog d a b fn m s
  | .vbcast d sr m => Sys2Proof.Machine.execVbcast d sr m s
  | .viota d sr m => Sys2Proof.Machine.execViota d sr m s
  | .vrngCo d sr m => Sys2Proof.Machine.execVrngCo d sr m s
  | .vrngLc d sr m => Sys2Proof.Machine.execVrngLc d sr m s
  | .vcomp d a sr m => Sys2Proof.Machine.execVcomp d a sr m s
  | .vshape sr => Sys2Proof.Machine.execVshape sr s
  | .mpop a sr m => Sys2Proof.Machine.execMpop a sr m s
  | .sfrcp d a k fmt m => Sys2Proof.Machine.execSfrcp d a k fmt m s
  | .sfrsq d a k fmt m => Sys2Proof.Machine.execSfrsq d a k fmt m s
  | .sfexp d a k fmt m => Sys2Proof.Machine.execSfexp d a k fmt m s
  | .sflog d a k fmt m => Sys2Proof.Machine.execSflog d a k fmt m s
  | .sftanh d a k fmt m => Sys2Proof.Machine.execSftanh d a k fmt m s
  | .sfsig d a k fmt m => Sys2Proof.Machine.execSfsig d a k fmt m s
  | .sfsin d a k fmt m => Sys2Proof.Machine.execSfsin d a k fmt m s
  | .sfcos d a k fmt m => Sys2Proof.Machine.execSfcos d a k fmt m s
  | .ldI8 d b imm => Sys2Proof.Machine.execLdI8 d b imm s
  | .ldU8 d b imm => Sys2Proof.Machine.execLdU8 d b imm s
  | .ldI16 d b imm => Sys2Proof.Machine.execLdI16 d b imm s
  | .ldI32 d b imm => Sys2Proof.Machine.execLdI32 d b imm s
  | .ldI64 d b imm => Sys2Proof.Machine.execLdI64 d b imm s
  | .pref b imm => Sys2Proof.Machine.execPref b imm s
  | .flush b imm => Sys2Proof.Machine.execFlush b imm s
  | .ldsI8 d b imm => Sys2Proof.Machine.execLdsI8 d b imm s
  | .ldsU8 d b imm => Sys2Proof.Machine.execLdsU8 d b imm s
  | .ldsI16 d b imm => Sys2Proof.Machine.execLdsI16 d b imm s
  | .ldsI32 d b imm => Sys2Proof.Machine.execLdsI32 d b imm s
  | .ldsI64 d b imm => Sys2Proof.Machine.execLdsI64 d b imm s
  | .stI8 d b imm => Sys2Proof.Machine.execStI8 d b imm s
  | .stI16 d b imm => Sys2Proof.Machine.execStI16 d b imm s
  | .stI32 d b imm => Sys2Proof.Machine.execStI32 d b imm s
  | .stI64 d b imm => Sys2Proof.Machine.execStI64 d b imm s
  | .ldv v b m imm => Sys2Proof.Machine.execLdv v b m imm s
  | .stv v b m imm => Sys2Proof.Machine.execStv v b m imm s
  | .vgather v b m scaled x => Sys2Proof.Machine.execVgather v b m scaled x s
  | .vscatter v b m scaled x => Sys2Proof.Machine.execVscatter v b m scaled x s
  | .amoAddI64 d b imm => Sys2Proof.Machine.execAmoAddI64 d b imm s
  | .amoAndI64 d b imm => Sys2Proof.Machine.execAmoAndI64 d b imm s
  | .amoOrI64 d b imm => Sys2Proof.Machine.execAmoOrI64 d b imm s
  | .amoXorI64 d b imm => Sys2Proof.Machine.execAmoXorI64 d b imm s
  | .amoMinI64 d b imm => Sys2Proof.Machine.execAmoMinI64 d b imm s
  | .amoMaxI64 d b imm => Sys2Proof.Machine.execAmoMaxI64 d b imm s
  | .amoSwapI64 d b imm => Sys2Proof.Machine.execAmoSwapI64 d b imm s
  | .amoCasI64 d b imm => Sys2Proof.Machine.execAmoCasI64 d b imm s
  | .ldI8Index d b x p => Sys2Proof.Machine.execLdI8Index d b x p s
  | .ldU8Index d b x p => Sys2Proof.Machine.execLdU8Index d b x p s
  | .ldI16Index d b x p => Sys2Proof.Machine.execLdI16Index d b x p s
  | .ldI32Index d b x p => Sys2Proof.Machine.execLdI32Index d b x p s
  | .ldI64Index d b x p => Sys2Proof.Machine.execLdI64Index d b x p s
  | .prefIndex b x g => Sys2Proof.Machine.execPrefIndex b x g s
  | .ldsI8Index d b x p => Sys2Proof.Machine.execLdsI8Index d b x p s
  | .ldsU8Index d b x p => Sys2Proof.Machine.execLdsU8Index d b x p s
  | .ldsI16Index d b x p => Sys2Proof.Machine.execLdsI16Index d b x p s
  | .ldsI32Index d b x p => Sys2Proof.Machine.execLdsI32Index d b x p s
  | .ldsI64Index d b x p => Sys2Proof.Machine.execLdsI64Index d b x p s
  | .stI8Index d b x g => Sys2Proof.Machine.execStI8Index d b x g s
  | .stI16Index d b x g => Sys2Proof.Machine.execStI16Index d b x g s
  | .stI32Index d b x g => Sys2Proof.Machine.execStI32Index d b x g s
  | .stI64Index d b x g => Sys2Proof.Machine.execStI64Index d b x g s
  | .amoAddI32 d b imm => Sys2Proof.Machine.execAmoAddI32 d b imm s
  | .amoAndI32 d b imm => Sys2Proof.Machine.execAmoAndI32 d b imm s
  | .amoOrI32 d b imm => Sys2Proof.Machine.execAmoOrI32 d b imm s
  | .amoXorI32 d b imm => Sys2Proof.Machine.execAmoXorI32 d b imm s
  | .amoMinI32 d b imm => Sys2Proof.Machine.execAmoMinI32 d b imm s
  | .amoMaxI32 d b imm => Sys2Proof.Machine.execAmoMaxI32 d b imm s
  | .amoSwapI32 d b imm => Sys2Proof.Machine.execAmoSwapI32 d b imm s
  | .amoCasI32 d b imm => Sys2Proof.Machine.execAmoCasI32 d b imm s
  | .sldI8 d bank off => Sys2Proof.Machine.execSldI8 d bank off s
  | .sldU8 d bank off => Sys2Proof.Machine.execSldU8 d bank off s
  | .sldI16 d bank off => Sys2Proof.Machine.execSldI16 d bank off s
  | .sldI32 d bank off => Sys2Proof.Machine.execSldI32 d bank off s
  | .sldI64 d bank off => Sys2Proof.Machine.execSldI64 d bank off s
  | .sstI8 d bank off => Sys2Proof.Machine.execSstI8 d bank off s
  | .sstI16 d bank off => Sys2Proof.Machine.execSstI16 d bank off s
  | .sstI32 d bank off => Sys2Proof.Machine.execSstI32 d bank off s
  | .sstI64 d bank off => Sys2Proof.Machine.execSstI64 d bank off s
  | .sldv v bank off => Sys2Proof.Machine.execSldv v bank off s
  | .sstv v bank off => Sys2Proof.Machine.execSstv v bank off s
  | .sldt v bank off => Sys2Proof.Machine.execSldt v bank off s
  | .slds e bank off => Sys2Proof.Machine.execSlds e bank off s
  | .sldI8Regoff d bank x off => Sys2Proof.Machine.execSldI8Regoff d bank x off s
  | .sldU8Regoff d bank x off => Sys2Proof.Machine.execSldU8Regoff d bank x off s
  | .sldI16Regoff d bank x off => Sys2Proof.Machine.execSldI16Regoff d bank x off s
  | .sldI32Regoff d bank x off => Sys2Proof.Machine.execSldI32Regoff d bank x off s
  | .sldI64Regoff d bank x off => Sys2Proof.Machine.execSldI64Regoff d bank x off s
  | .sstI8Regoff d bank x off => Sys2Proof.Machine.execSstI8Regoff d bank x off s
  | .sstI16Regoff d bank x off => Sys2Proof.Machine.execSstI16Regoff d bank x off s
  | .sstI32Regoff d bank x off => Sys2Proof.Machine.execSstI32Regoff d bank x off s
  | .sstI64Regoff d bank x off => Sys2Proof.Machine.execSstI64Regoff d bank x off s
  | .sldvRegoff v bank x off => Sys2Proof.Machine.execSldvRegoff v bank x off s
  | .sstvRegoff v bank x off => Sys2Proof.Machine.execSstvRegoff v bank x off s
  | .sldtRegoff v bank x off => Sys2Proof.Machine.execSldtRegoff v bank x off s
  | .sldsRegoff e bank x off => Sys2Proof.Machine.execSldsRegoff e bank x off s
  | .cpy d sr g => Sys2Proof.Machine.execCpy d sr g s
  | .cegeo a b idx g => Sys2Proof.Machine.execCegeo a b idx g s
  | .fapar a b n g => Sys2Proof.Machine.execFapar a b n g s
  | .facall beats routine fmt => Sys2Proof.Machine.execFacall beats routine fmt s
  | .fawait g => Sys2Proof.Machine.execFawait g s
  | .fastat d g => Sys2Proof.Machine.execFastat d g s
  | .fafmt sub fmt g => Sys2Proof.Machine.execFafmt sub fmt g s
  | .fampw a t g => Sys2Proof.Machine.execFampw a t g s
  | .binit t n g => Sys2Proof.Machine.execBinit t n g s
  | .bexp t b g => Sys2Proof.Machine.execBexp t b g s
  | .barv t g => Sys2Proof.Machine.execBarv t g s
  | .btest d t g => Sys2Proof.Machine.execBtest d t g s
  | .bwait t q g => Sys2Proof.Machine.execBwait t q g s
  | .bankgive t m c g => Sys2Proof.Machine.execBankgive t m c g s
  | .spawn t e blk g => Sys2Proof.Machine.execSpawn t e blk g s
  | .spawnJoin t g => Sys2Proof.Machine.execSpawnJoin t g s
  | .task r q g => Sys2Proof.Machine.execTask r q g s
  | .tdep h n g => Sys2Proof.Machine.execTdep h n g s
  | .gang n => Sys2Proof.Machine.execGang n s
  | .gend => Sys2Proof.Machine.execGend s
  | .tswait sr g => Sys2Proof.Machine.execTswait sr g s
  | .smap v w g => Sys2Proof.Machine.execSmap v w g s
  | .sunmap t v g => Sys2Proof.Machine.execSunmap t v g s
  | .swb t v g => Sys2Proof.Machine.execSwb t v g s
  | .preq a t g => Sys2Proof.Machine.execPreq a t g s
  | .reloc d sr g => Sys2Proof.Machine.execReloc d sr g s
  | .msweep b len g => Sys2Proof.Machine.execMsweep b len g s
  | .rsgo a c g => Sys2Proof.Machine.execRsgo a c g s
  | .rsprog d a g => Sys2Proof.Machine.execRsprog d a g s
  | .coll a c g => Sys2Proof.Machine.execColl a c g s
  | .pcnt d t g => Sys2Proof.Machine.execPcnt d t g s
  | .pwait t k g => Sys2Proof.Machine.execPwait t k g s
  | .pcancel t n g => Sys2Proof.Machine.execPcancel t n g s
  | .fenceEng g => Sys2Proof.Machine.execFenceEng g s
  | .fenceSys g => Sys2Proof.Machine.execFenceSys g s
  | .tlbinvAll g => Sys2Proof.Machine.execTlbinvAll g s
  | .tlbinvVa a len g => Sys2Proof.Machine.execTlbinvVa a len g s
  | .tlbinvAs a g => Sys2Proof.Machine.execTlbinvAs a g s
  | .htsDoorbellSubmit q bytes aligned first count => Sys2Proof.Machine.execHtsDoorbellSubmit q bytes aligned first count s
  | .queueControlWrite q data => Sys2Proof.Machine.execQueueControlWrite q data s
  | .preemptRequestWrite data => Sys2Proof.Machine.execPreemptRequestWrite data s
  | .chotisRetrainWrite link data => Sys2Proof.Machine.execChotisRetrainWrite link data s
  | .registerWrite offset bytes data => Sys2Proof.Machine.execRegisterWrite offset bytes data s
  | .stkerrClear => Sys2Proof.Machine.execStkerrClear s
  | .ceerrClear => Sys2Proof.Machine.execCeerrClear s
  | .efrWrite x => Sys2Proof.Machine.execEfrWrite x s
  | .tsctlWrite x => Sys2Proof.Machine.execTsctlWrite x s
  | .ownershipTableWrite hi x => Sys2Proof.Machine.execOwnershipTableWrite hi x s
  | .tslateReadClear d => Sys2Proof.Machine.execTslateReadClear d s
  | .dsdropReadClear d => Sys2Proof.Machine.execDsdropReadClear d s
  | .linkStatusRead link => Sys2Proof.Machine.execLinkStatusRead link s
  | .taskDispatch => Sys2Proof.Machine.execTaskDispatch s
  | .effectiveLevelAging saved who => Sys2Proof.Machine.execEffectiveLevelAging saved who s
  | .taskRecordSubmit job => Sys2Proof.Machine.execTaskRecordSubmit job s
  | .tdepDecrement job => Sys2Proof.Machine.execTdepDecrement job s
  | .preemption loc => Sys2Proof.Machine.execPreemption loc s
  | .copyQuiesceWindowExpiry loc => Sys2Proof.Machine.execCopyQuiesceWindowExpiry loc s
  | .savedInstanceResume work => Sys2Proof.Machine.execSavedInstanceResume work s
  | .faCallReissue loc => Sys2Proof.Machine.execFaCallReissue loc s
  | .engineWaitEnd loc => Sys2Proof.Machine.execEngineWaitEnd loc s
  | .m0LoadReturn n => Sys2Proof.Machine.execM0LoadReturn n s
  | .spawnedContextReady loc => Sys2Proof.Machine.execSpawnedContextReady loc s
  | .timeStepBoundary => Sys2Proof.Machine.execTimeStepBoundary s
  | .stepMarkerReceive link marker crcOk => Sys2Proof.Machine.execStepMarkerReceive link marker crcOk s
  | .ptsTick => Sys2Proof.Machine.execPtsTick s
  | .l1CopyAgeExpiry => Sys2Proof.Machine.execL1CopyAgeExpiry s
  | .homeTick => Sys2Proof.Machine.execHomeTick s
  | .cellErrorWriteBack line => Sys2Proof.Machine.execCellErrorWriteBack line s
  | .scrubLine line => Sys2Proof.Machine.execScrubLine line s
  | .pageRequestOutcome n resident entryAt entry => Sys2Proof.Machine.execPageRequestOutcome n resident entryAt entry s
  | .pageReleaseRequest base size => Sys2Proof.Machine.execPageReleaseRequest base size s
  | .hostSnoopWrite line data mask => Sys2Proof.Machine.execHostSnoopWrite line data mask s
  | .hostCxlMemWrite line op keeps => Sys2Proof.Machine.execHostCxlMemWrite line op keeps s
  | .copyStart job => Sys2Proof.Machine.execCopyStart job s
  | .copyLineWrite st data => Sys2Proof.Machine.execCopyLineWrite st data s
  | .copyComplete job fail => Sys2Proof.Machine.execCopyComplete job fail s
  | .faRoutineStart core => Sys2Proof.Machine.execFaRoutineStart core s
  | .faMulticastStart core => Sys2Proof.Machine.execFaMulticastStart core s
  | .faRoutineComplete core => Sys2Proof.Machine.execFaRoutineComplete core s
  | .relocLineMove job => Sys2Proof.Machine.execRelocLineMove job s
  | .msweepLine job => Sys2Proof.Machine.execMsweepLine job s
  | .reshardBlock job remote => Sys2Proof.Machine.execReshardBlock job remote s
  | .reshardStop job why => Sys2Proof.Machine.execReshardStop job why s
  | .mapUnitAccept job => Sys2Proof.Machine.execMapUnitAccept job s
  | .microprogramVerify job ecdsaOk lmsOk => Sys2Proof.Machine.execMicroprogramVerify job ecdsaOk lmsOk s
  | .collJobStart job => Sys2Proof.Machine.execCollJobStart job s
  | .exponentHeaderReceive cid tile from_ e special whole digest => Sys2Proof.Machine.execExponentHeaderReceive cid tile from_ e special whole digest s
  | .planePacketReceive cid tile plane from_ bits crcOk => Sys2Proof.Machine.execPlanePacketReceive cid tile plane from_ bits crcOk s
  | .wholeValueTileReceive cid tile from_ values => Sys2Proof.Machine.execWholeValueTileReceive cid tile from_ values s
  | .planeCancelReceive cid tile consumer => Sys2Proof.Machine.execPlaneCancelReceive cid tile consumer s
  | .collComplete job => Sys2Proof.Machine.execCollComplete job s
  | .flitReceive link flit replay => Sys2Proof.Machine.execFlitReceive link flit replay s
  | .linkTrainingComplete link ok version caps partner trips => Sys2Proof.Machine.execLinkTrainingComplete link ok version caps partner trips s
  | .sensorSample sample => Sys2Proof.Machine.execSensorSample sample s
  | .managementServiceCommand cmd => Sys2Proof.Machine.execManagementServiceCommand cmd s
  | .firmwareUpdate signaturesOk image => Sys2Proof.Machine.execFirmwareUpdate signaturesOk image s
  | .attestationRequest => Sys2Proof.Machine.execAttestationRequest s
  | .deviceReset => Sys2Proof.Machine.execDeviceReset s
  | .powerOn hdm => Sys2Proof.Machine.execPowerOn hdm s
  | .mapUnitLineTransfer job => Sys2Proof.Machine.execMapUnitLineTransfer job s

end Sys2Proof.Machine
end

