-- ==== Sys2Proof/Machine/Run.lean ====
section
/-! DEFINITION. Fetching and issuing bundles (R48, R52, R71, R72, R381), gangs (R93 to R98), and the placing of an
instruction where the next step fetches it. -/

namespace Sys2Proof.Machine

/-! Issue of one bundle by the acting context. -/

/-- The lowest failing check of R52, else an occupied slot (R72), else a strict-ECC trap that is due (R172). Of two
syllables that fail with the same lowest sub-code the first one that the decoder finds gives the slot, which no rule names
(log entry 109). The trap of a load of M1 that is due ranks last and names slot 15 (log entry 137). -/
def preTrap (s : State) (b : Bundle) : Option TrapInfo :=
  match b.errs with
  | e :: rest =>
    let m := rest.foldl (fun (a : Nat × Nat) x => if x.1 < a.1 then x else a) e
    some { cause := 1, sub := m.1, slot := m.2, addr := 0 }
  | [] =>
    match b.syls.find? fun y => s.cycle < ((s.core (coreOf s.cur)).slotFree[y.1]?).getD 0 with
    | some y => some { cause := 2, sub := 1, slot := y.1, addr := 0 }
    | none =>
      match b.syls.find? fun y => s.me.m0.any fun o => o.usedBy s.me.regs y with
      | some y => some { cause := 8, sub := 1, slot := y.1, addr := 0 }
      | none => if s.me.ecc.any (· ≤ s.cycle) then some { cause := 8, sub := 1, slot := 15, addr := 0 } else none
/-- Strict-ECC traps that this bundle takes are taken once. -/
def Ctx.dropEcc (c : Ctx) (cycle : Nat) (syls : List (Nat × Instr)) : Ctx :=
  { c with
    m0 := c.m0.filter fun o => !(o.written && syls.any fun y => o.usedBy c.regs y)
    ecc := c.ecc.filter fun e => cycle < e }
/-- The bookkeeping with which a bundle starts. -/
def startIssue (syls : List (Nat × Instr)) (len : Nat) (woken : Option WaitEnd) (t : Option TrapInfo) : Issue :=
  { Issue.none with multi := true, len := len, syls := syls, woken := woken, trap := t }
/-- The waits of a held bundle that have ended with their syllable completing. -/
def Ctx.endedWaits (c : Ctx) : List Wait :=
  match c.held, c.woken with
  | some h, some .completes => h.ended ++ [h.wait]
  | some h, _ => h.ended
  | none, _ => []
/-- Run the syllables of a bundle in slot order (R178); a meaning that stops ends the bundle. -/
def runSyls : List (Nat × Instr) → State → Host.Outcome State Fault Refusal
  | [], s => .next s
  | (k, i) :: rest, s =>
    match exec i { s with issue := { s.issue with slot := some k } } with
    | .next t => runSyls rest t
    | .fault r => .fault r
    | .refused r => .refused r

/-- Every context of a list does the same, each as the acting one. -/
def forMembers (f : State → Host.Outcome State Fault Refusal) : List Nat → State → Host.Outcome State Fault Refusal
  | [], s => .next s
  | l :: rest, s =>
    match f (s.actAs l) with
    | .next u => forMembers f rest u
    | .fault r => .fault r
    | .refused r => .refused r
/-- The same, with the context that acted before acting again. -/
def forMembersOf (s : State) (f : State → Host.Outcome State Fault Refusal) (ms : List Nat) (t : State) :
    Host.Outcome State Fault Refusal :=
  match forMembers f ms t with
  | .next u => .next (u.actAs s.cur)
  | .fault r => .fault r
  | .refused r => .refused r
/-- A wait of the acting context that the trap of another member ends: nobody waits for its page request, and no syllable of
its bundle commits (R97, R381). -/
def State.leaveWait (s : State) : State :=
  match s.me.status with
  | .waiting _ =>
    { s with
      me := { s.me with status := .running }
      requests := s.requests.map fun (r : PageRequest) => if r.loc = some s.cur then { r with loc := none } else r }
  | .idle | .ready | .running => s
/-- Every context of a list takes a trap at its own pc, bundle i of all of them (R97, R315). -/
def trapAll (t : TrapInfo) (ms : List Nat) (s : State) : Host.Outcome State Fault Refusal :=
  forMembersOf s (fun a => trapEnter a.leaveWait t a.issuedAt) ms s

/-- Run the bundle of one context and settle it. `s` is the state before any slot acts. A GANG that does not match is
raised on every member of its launch (R93); that the launch is abandoned means no more than these traps, which no rule says
(log entry 120). -/
def runBundle (s : State) (syls : List (Nat × Instr)) (len : Nat) (t : Option TrapInfo) :
    Host.Outcome State Fault Refusal :=
  match runSyls syls { s with me := s.me.deliver s.cycle, issue := startIssue syls len none t } with
  | .next u =>
    match u.issue.hold, bundleTrap s u with
    | false, some tr =>
      if tr.cause = 0x0B && tr.sub = 1 && s.me.gidx.getLsbD 63 then trapAll tr s.gangMembers s
      else commit (if tr.cause = 8 then { s with me := s.me.dropEcc s.cycle syls } else s) u
    | _, _ => commit s u
  | .fault r => .fault r
  | .refused r => .refused r

/-- A context under a stall issues nothing this cycle; nobody issues before `c` on its core. In the hold of a HALT no
request for pre-emption takes effect (R87). -/
def State.stallCore (s : State) (c : Nat) (halt : Bool) : State :=
  let k := coreOf s.cur
  (s.setCore k { s.core k with notBefore := c }).modMe fun m => if halt then { m with unissued := false } else m

/-! Gangs: every member issues the lead's bundle; all of it commits, or none (R93 to R97). The skew of the members
is timing (log entry 9). -/

/-- Run syllables of a bundle for each member of a list, with the bookkeeping that it has so far. A member whose bundle was
in an engine wait runs them with the operands held, its slots occupied from its first issue (R381). -/
def runPart (syls : List (Nat × Instr)) : List (Nat × Issue) → State → Host.Outcome (State × List (Nat × Issue)) Fault Refusal
  | [], s => .next (s, [])
  | (l, i) :: rest, s =>
    let a := s.actAs l
    let real := a.me.regs
    let k := coreOf l
    match runSyls syls { a with
        me := { a.me with regs := match a.me.held with | some h => h.regs | none => real }, issue := i } with
    | .next u =>
      let v := { u with me := { u.me with regs := real }, issue := Issue.none }
      let v := if a.me.held.isSome then v.setCore k { v.core k with slotFree := (a.core k).slotFree } else v
      match runPart syls rest v with
      | .next (w, is) => .next (w, (l, u.issue) :: is)
      | .fault r => .fault r
      | .refused r => .refused r
    | .fault r => .fault r
    | .refused r => .refused r
/-- The bookkeeping with which a member starts a bundle. -/
def Ctx.startBundle (c : Ctx) (syls : List (Nat × Instr)) (len : Nat) (t : Option TrapInfo) : Issue :=
  { startIssue syls len c.woken t with
    ended := c.endedWaits, reads := match c.held with | some h => h.reads | none => [] }
/-- Run a bundle for every member: the state, and each member with its bookkeeping, its trap the one that it would report
(R211). The slots before E act member by member in the order of the list, which makes it the order of their M0 accesses in one
bundle (R182); those of E in the order of their cores, as operations of one cycle reach the barrier unit (R96, R206, log
entry 9). -/
def runMembers (syls : List (Nat × Instr)) (len : Nat) (t : Option TrapInfo) (ms : List Nat) (s : State) :
    Host.Outcome (State × List (Nat × Issue)) Fault Refusal :=
  let start := ms.map fun l => (l, (s.ctx l).startBundle syls len t)
  let ready := ms.foldl (fun (s : State) l => s.modCtx l fun c => c.deliver s.cycle) s
  match runPart (syls.filter fun y => y.1 ≠ 8) start ready with
  | .next (u, is) =>
    (match runPart (syls.filter fun y => y.1 = 8) ((s.places.filter ms.contains).filterMap fun l => is.find? fun i => i.1 = l) u
        with
      | .next (v, is) =>
        .next (v, ms.filterMap fun l => (is.find? fun i => i.1 = l).map fun i =>
          (l, { i.2 with trap := bundleTrap (s.actAs l) { v.actAs l with issue := i.2 } }))
      | .fault r => .fault r
      | .refused r => .refused r)
  | .fault r => .fault r
  | .refused r => .refused r
/-- The trap of a bundle among those that its members report: the first of R211, the lowest member first. -/
def firstTrap : List TrapInfo → Option TrapInfo
  | [] => none
  | t :: rest =>
    match firstTrap rest with
    | some u => if u.rank < t.rank then some u else some t
    | none => some t
/-- Commit the slots of every member's bundle; the members that go on through ERET. A HALT of any member ends the task of
every one; GEND ends those that are not the lead (R98). -/
def commitMembers (halt : Bool) : List (Nat × Issue) → State → State × List Nat
  | [], s => (s, [])
  | (l, i) :: rest, s =>
    let a := { s.actAs l with issue := i }
    if halt || i.gend then commitMembers halt rest a.quit
    else
      let r := a.endBundle
      let t := commitMembers halt rest r.1
      (t.1, if r.2 then l :: t.2 else t.2)
/-- The control of every member that has not ended is the lead's (R93). -/
def State.followLead (s : State) (lead : Nat) (ms : List Nat) : State :=
  let d := s.ctx lead
  ms.foldl (fun (s : State) l =>
    if (s.ctx l).status = .idle || !(s.ctx l).ganged then s
    else s.modCtx l fun c => { c with pc := d.pc, delay := d.delay, loops := d.loops, atPoint := d.atPoint }) s
/-- A member without a wait of its own keeps the operands of a bundle that waits in another member (R381). -/
def State.holdOperands (s : State) (i : Issue) : State :=
  match s.me.held with
  | some _ => s
  | none => s.modMe fun c => { c with
      held := some { first := s.cycle, syls := i.syls, len := i.len, regs := c.regs, reads := i.reads, wait := .fa
                     ended := [] } }
/-- A bundle of a gang enters the waits of its members: `u` is the state after its syllables have run. -/
def State.gangWait (s u : State) : List (Nat × Issue) → State
  | [] => s
  | (l, i) :: rest =>
    let a := ((s.actAs l).keepSlots u).modMe fun c => c.deliver s.cycle
    State.gangWait (match i.wait with | some w => a.enterWait i w | none => a.holdOperands i) u rest
/-- The reads on which the traps and waits of a bundle of a gang rest have been made (R21). -/
def State.readChecks (s : State) (is : List (Nat × Issue)) : State := s.readLines (is.flatMap fun i => i.2.checks)
/-- Every member of a list changes. -/
def State.modMembers (s : State) (ms : List Nat) (f : Ctx → Ctx) : State :=
  ms.foldl (fun (s : State) l => s.modCtx l f) s
/-- Settle the bundle of a gang whose syllables took `s` to `u`, with the bookkeeping `is` of its members and no hold among
them: all of it traps, waits or commits (R95 to R98). -/
def settleGang (s : State) (ms : List Nat) (syls : List (Nat × Instr)) (u : State) (is : List (Nat × Issue)) :
    Host.Outcome State Fault Refusal :=
  match is.findSome? fun i => i.2.stops, firstTrap (is.filterMap fun i => i.2.trap) with
  | some f, _ => .fault f
  | none, some tr =>
    trapAll tr ms ((if tr.cause = 8 then s.modMembers ms fun c => c.dropEcc s.cycle syls else s).readChecks is)
  | none, none =>
    if is.any fun i => i.2.wait.isSome then .next (((s.readChecks is).gangWait u is).actAs s.cur)
    else
      let halt := is.any fun i => i.2.halt
      if halt && ms.any fun l => (s.ctx l).owesEcc then trapAll haltTrap ms (s.modMembers ms Ctx.payEcc)
      else
        let r := commitMembers halt is u
        let v := r.1.followLead (ms.headD s.cur) ms
        match is.findSome? fun i => i.2.soft with
        | some tr =>
          if halt then .next (v.actAs s.cur)
          else
            let next := (v.actAs s.cur).wouldIssue (match is with | (_, i) :: _ => i.nextCycle s.cycle | [] => s.cycle + 1)
            forMembersOf s (fun a => trapEnter a tr next) (ms.filter fun l => (v.ctx l).status ≠ .idle) v
        | none => forMembersOf s eretReturn r.2 v
/-- A hold keeps the bundle of the acting context, or of its gang, from issuing (R87). -/
def State.keepHeld (s : State) (ms : List Nat) : State := s.modMembers ms fun c => { c with unissued := true }
/-- The issue of one bundle of a formed gang by its lead. -/
def runGang (s : State) (ms : List Nat) (syls : List (Nat × Instr)) (len : Nat) (t : Option TrapInfo) :
    Host.Outcome State Fault Refusal :=
  match runMembers syls len t ms s with
  | .next (u, is) => if is.any fun i => i.2.hold then .next (s.keepHeld ms) else settleGang s ms syls u is
  | .fault r => .fault r
  | .refused r => .refused r

/-- The acting context is the last member to reach the GANG of a bundle: with it the gang forms, and issues the bundle as
its first, which then traps on all of them where it holds a decoding error (R93, R97, R211). -/
def State.formsGang (s : State) (b : Bundle) : Bool :=
  !s.me.ganged &&
    b.syls.any fun y => match y.2 with | .gang n => s.gangFits n && s.lastAtGang n | _ => false
/-- A context may issue a bundle at this cycle: it holds its core, which may issue, and no hold or wait keeps it (R87,
R89, R94, R95, R100, R148). -/
def State.memberReady (s : State) (l : Nat) : Bool :=
  let c := s.ctx l
  let k := s.core (coreOf l)
  k.current == some (Fin.ofNat 4 l) && k.notBefore ≤ s.cycle && c.nextAt ≤ s.cycle && c.faCall.isNone &&
    c.status == .running && c.stopping.isNone
/-- The acting context may issue; a gang is frozen while any member cannot (R95). -/
def State.mayIssue (s : State) : Bool := s.me.issues && (s.cur :: s.issuers).all s.memberReady
/-- A context comes to issue: its results that are due are written, except where its bundle has waited, and the last
point of R219 is past. -/
def State.arriveAt (s : State) (l : Nat) : State :=
  s.modCtx l fun c => { (if c.held.isSome then c else c.arrive s.cycle) with atPoint := false }
/-- Issue the bundle at the pc of the acting context, at this cycle. A capacity hold of an engine syllable comes before
every trap, so that a bundle with decoding errors runs too (R211). A bundle whose wait has ended and that has not committed at
once (`State.waitDone`) is under such a hold. -/
def State.issueBundle (s : State) : Host.Outcome State Fault Refusal :=
  let ms := s.issuers
  let s := (s.cur :: ms).foldl State.arriveAt s
  let trap (s : State) (t : TrapInfo) := if ms = [] then trapEnter s t s.issuedAt else trapAll t ms s
  if (s.cur :: ms).any fun l => (s.ctx l).held.isSome then .next (s.keepHeld (s.cur :: ms))
  else
    match s.fetch with
    | .hole => .fault .reservedAddress
    | .fault va => trap (s.fetchFails va true) { cause := 1, sub := 1, slot := 15, addr := va }
    | .noLast => trap (s.fetchFails (s.me.pc + 44) false) { cause := 1, sub := 2, slot := 15, addr := 0 }
    | .ok ws =>
      let b := decodeBundle s.me.delay.isSome ws
      let ms := if s.formsGang b then s.gangMembers else ms
      let s := if s.formsGang b then ms.foldl State.arriveAt s.formGang else s
      match (s.cur :: ms).findSome? fun l => stallUntil (s.ctx l) s.cycle b.syls with
      | some d => .next (s.stallCore d ((s.cur :: ms).any fun l => (s.ctx l).halts b.syls))
      | none =>
        let s := s.fetchReads ws.length
        let t := firstTrap ((s.cur :: ms).filterMap fun l => preTrap (s.actAs l) b)
        if ms = [] then runBundle s b.syls ws.length t else runGang s ms b.syls ws.length t

/-- Commit the bundle of a context whose engine wait has ended: its operands are those held (R381). Its slots stay
occupied from their first issue, and results that have come due meanwhile are written when the context issues next. None
while an issue hold keeps it. -/
def State.finishHeld (s : State) (l : Nat) : Option (Host.Outcome State Fault Refusal) :=
  let a := s.actAs l
  match a.me.held with
  | none => none
  | some h =>
    match runSyls h.syls { a with
        me := { a.me with regs := h.regs }
        issue := { startIssue h.syls h.len a.me.woken none with ended := a.me.endedWaits, reads := h.reads } } with
    | .next u => if u.issue.hold then none else some (commit a (({ u with me := { u.me with regs := a.me.regs } }).keepSlots a))
    | .fault r => some (.fault r)
    | .refused r => some (.refused r)
/-- A gang in which the wait of a member ends in a trap: bundle i traps on all of it at once, though another member still
waits (R97, R381). `ms` are its members. -/
def State.heldTrap (s : State) (ms : List Nat) : Option (Host.Outcome State Fault Refusal) :=
  let ended := ms.filter fun l => (s.ctx l).woken.isSome && (s.ctx l).status == .running
  match ms.any fun l => (s.ctx l).waits, ended.findSome? fun l => (s.ctx l).held with
  | true, some h =>
    match runMembers h.syls h.len none ended s with
    | .next (_, is) =>
      if is.any fun i => i.2.hold then none
      else (firstTrap (is.filterMap fun i => i.2.trap)).map fun t => trapAll t ms (s.readChecks is)
    | .fault _ | .refused _ => none
  | _, _ => none
/-- Commit the bundle of a gang `ms` whose waits have all ended, in the cycle in which the last of them ends (R95, R381). None
while an issue hold keeps it. -/
def State.finishGang (s : State) (ms : List Nat) : Option (Host.Outcome State Fault Refusal) :=
  let a := s.actAs (ms.headD s.cur)
  match ms.findSome? fun l => (s.ctx l).held with
  | none => none
  | some h =>
    if !ms.all fun l => (s.ctx l).status == .running && (s.ctx l).stopping.isNone then none
    else
      match runMembers h.syls h.len none ms a with
      | .next (u, is) => if is.any fun i => i.2.hold then none else some (settleGang a ms h.syls u is)
      | .fault r => some (.fault r)
      | .refused r => some (.refused r)
/-- The first gang whose held bundle traps so, or commits. -/
def State.gangDone (s : State) : Option (Host.Outcome State Fault Refusal) :=
  (s.places.filter fun l => (s.ctx l).ganged && bits (s.ctx l).gidx.toNat 5 0 = 0).findSome? fun l =>
    let ms := s.gangOf (s.ctx l).task
    (s.heldTrap ms).or (s.finishGang ms)
/-- The first context whose ended wait can commit its bundle; gang members commit with their lead. -/
def State.heldCommit (s : State) : Option (Host.Outcome State Fault Refusal) :=
  (s.places.filter fun l =>
    let c := s.ctx l
    c.held.isSome && c.woken.isSome && !c.ganged && (c.status == .ready || c.status == .running)).findSome? s.finishHeld
/-- What an ended wait brings about in the cycle of its end (R381): a gang traps or commits, or a context commits. The turn to
issue stays where it is. -/
def State.waitDone (s : State) : Option (Host.Outcome State Fault Refusal) :=
  match s.gangDone.or s.heldCommit with
  | some (.next t) => some (.next (t.actAs s.cur))
  | r => r

/-! Where an instruction is placed for the next step (log entry 2). -/

/-- Page tables that map virtual [0, 1 GiB) to physical [0, 1 GiB), executable in user mode: a directory, a level 3
table and a level 2 leaf. -/
def placeTables (m : List Host.Cell) : List Host.Cell :=
  let m := storeBytes m 0x10000000 8 (2 ^ 63 + 0x10001000)
  let m := storeBytes m 0x10001000 8 (2 ^ 63 + 0x10002000)
  storeBytes m 0x10002000 8 (2 ^ 63 + 2 ^ 62 + 2 ^ 57 + 2 ^ 56 + 2 ^ 55 + 2 ^ 54 + (2 ^ 17 - 1) * 2 ^ 12 + 2 ^ 11)
/-- The acting context runs in user mode at address 0x1000, where one syllable stands as a bundle. -/
def placeWord (s : State) (w : Nat) : State :=
  let k := coreOf s.cur
  let c := s.core k
  let s := s.setCore k { c with current := some (Fin.ofNat 4 s.cur), notBefore := s.cycle }
  { s with
    engines := false
    mem := storeBytes (placeTables s.mem) 0x1000 4 (w % 2 ^ 31 + 2 ^ 31)
    me := { s.me with
      status := .running, held := none, priv := false, pc := 0x1000#64, delay := none, ptroot := 0x10000000#64
      ganged := false, atGang := false, faCall := none, m0 := [], preempt := false, stopping := none, nextAt := 0 } }

/-- The inputs that a stopped module takes (R261). -/
def resets : Instr → Bool
  | .deviceReset | .powerOn _ => true
  | _ => false
/-- Perform what the module does of itself. -/
def Act.perform (a : Act) (s : State) : Host.Outcome State Fault Refusal :=
  match a with
  | .breach => .next s.spoilTiles
  | .planes => .next s.settlePlanes
  | .timeStepBoundary => execTimeStepBoundary s
  | .homeTick => execHomeTick s
  | .ptsTick => execPtsTick s
  | .l1CopyAgeExpiry => execL1CopyAgeExpiry s
  | .engineWaitEnd l => execEngineWaitEnd l s
  | .spawnedContextReady l => execSpawnedContextReady l s
  | .copyStart j => execCopyStart j s
  | .copyLineWrite j => execCopyLineWrite (.own j) ⟨0, false⟩ s
  | .copyComplete j => execCopyComplete j none s
  | .copyLinkLost j => execCopyComplete j (some .linkLost) s
  | .relocLineMove j => execRelocLineMove j s
  | .msweepLine j => execMsweepLine j s
  | .mapUnitAccept j => execMapUnitAccept j s
  | .mapUnitLineTransfer j => execMapUnitLineTransfer j s
  | .taskRecordSubmit j => execTaskRecordSubmit j s
  | .tdepDecrement j => execTdepDecrement j s
  | .reshardBlock j => execReshardBlock j [] s
  | .collJobStart j => execCollJobStart j s
  | .collComplete j => execCollComplete j s
  | .preemption l => execPreemption l s
  | .copyQuiesceWindowExpiry l => execCopyQuiesceWindowExpiry l s
  | .faCallReissue l => execFaCallReissue l s
  | .savedInstanceResume w => execSavedInstanceResume w s
  | .taskDispatch => execTaskDispatch s
  | .faRoutineStart k => execFaRoutineStart k s
  | .faMulticastStart k => execFaMulticastStart k s
  | .faRoutineComplete k => execFaRoutineComplete k s
  | .faStep k => (s.faAdvance k.val).getD (.next s)
  | .faAhead k op => .next ((s.faAhead k.val op.val).getD s)
  | .reshardStop j => execReshardStop j .preempted s
  | .reshardLinkLost j => execReshardStop j .linkLost s
  | .scrub => .next s.scrubStep
  | .ringCopy => .next s.copyRecord
  | .effectiveLevelAging saved who => execEffectiveLevelAging saved who s
  | .noteHead q => .next (s.noteHead q.val)
  | .cellErrorWriteBack l => execCellErrorWriteBack l s

/-- What a step does (log entry 4): in a stopped module records go on to the host's event ring and nothing else moves (R261,
R262). Else a bundle whose wait has ended traps in its gang or commits; an event from outside; a due event; in the
first part of a cycle the next context issues, in the second an engine acts or the cycle ends, as the free choice of the
machine falls (R152, log entry 59). -/
def State.turn (s : State) : Host.Outcome State Fault Refusal :=
  match s.inputs with
  | i :: rest => if s.mgmt.stopped && !resets i then .next { s with inputs := rest } else exec i { s with inputs := rest }
  | [] =>
    if s.mgmt.stopped then .next s.copyRecord
    else
      match s.waitDone with
      | some r => r
      | none =>
        match s.dueEvents with
        | i :: _ => i.perform s
        | [] =>
          if s.engines then
            let fe := s.freeEvents
            match fe[if fe = [] then 0 else Config.choose s.freeCount % (fe.length + 1)]? with
            | some i => i.perform s.drawn
            | none => .next (if fe = [] then s else s.drawn).endCycle
          else if s.mayIssue then
            match s.issueBundle with
            | .next t => .next t.rotate
            | .fault r => .fault r
            | .refused r => .refused r
          else .next s.rotate

end Sys2Proof.Machine
end

