-- ==== Sys2Proof/Safety.lean ====
section
/-! DEFINITION. The words in which claims speak: a syllable inside a bundle or alone, a result that lands in flight,
what a memory write leaves alone, and when a run is safe. -/

namespace Sys2Proof.Machine

/-! Where a syllable stands. -/

/-- The syllable issues as one slot of a bundle: the step settles the bundle when all slots have run (R212). -/
def State.bundled (s : State) : Prop := s.issue.multi = true
/-- The syllable is the whole bundle, of `len` syllables with its extensions, and settles itself. -/
def State.alone (s : State) (len : Nat) : Prop := s.issue = { Issue.none with len := len }
/-- Fewer results are in flight than R213 allows, by two. -/
def State.roomy (s : State) : Prop :=
  s.me.inflight.length + s.me.m0.countP (fun o => !o.written && o.base.isNone) ≤ 62

/-! What a syllable leaves behind. -/

/-- The slot of the syllable is occupied for `n` cycles (R71, R72); nothing else of any core changes. -/
def slotHeld (s t : State) (slot n : Nat) : Prop :=
  ∀ k, t.core k =
    if k = coreOf s.cur then
      { s.core k with slotFree := (s.core k).slotFree.setIfInBounds (s.slotOr slot) (s.cycle + n) }
    else s.core k
/-- Exactly one more result is in flight: it becomes visible `lat` cycles from now (R71). -/
def lands (s t : State) (lat : Nat) (w : RegWrite) : Prop :=
  ∃ f : Flight, f.due = s.cycle + lat ∧ f.w = w ∧ ∀ g, g ∈ t.me.inflight ↔ g = f ∨ g ∈ s.me.inflight
/-- Besides the slots and the results in flight nothing changes: no register of any kind, no memory, no other
context, no engine. -/
def onlyResults (s t : State) : Prop :=
  t = { s with me := { s.me with inflight := t.me.inflight }, cores := t.cores }
/-- The syllable completes: its slot is held for `occ` cycles, the one result `w` lands after `lat`, and nothing else
changes. -/
def yields (o : Host.Outcome State Fault Refusal) (s : State) (slot occ lat : Nat) (w : RegWrite) : Prop :=
  ∃ t, o = .next t ∧ slotHeld s t slot occ ∧ lands s t lat w ∧ onlyResults s t
/-- The syllable completes without any effect but the time of its slot: its guard is false (R277). -/
def idles (o : Host.Outcome State Fault Refusal) (s : State) (slot occ : Nat) : Prop :=
  ∃ t, o = .next t ∧ slotHeld s t slot occ ∧ t = { s with cores := t.cores }
/-- The syllable records a trap for its bundle and does nothing else but hold its slot (R211, R212). -/
def traps (o : Host.Outcome State Fault Refusal) (s : State) (cause sub : Nat) (addr : Word) : Prop :=
  ∃ t, o = .next t ∧ t = { s with cores := t.cores, issue := t.issue } ∧
    ∃ r, t.issue.trap = some r ∧ r.cause = cause ∧ r.sub = sub ∧ r.addr = addr

/-! Vector results. -/

/-- A vector form completes with one result for vD: element `i` of `b` bytes becomes `f i` where it lies in the tile and
the mask admits it; every other element of vD, and every other register, is as before (R361). -/
def tileYields (o : Host.Outcome State Fault Refusal) (s : State) (slot extra beats : Nat) (d : VReg) (b : Nat)
    (m : MaskVal) (f : Nat → Nat) : Prop :=
  ∃ w : RegWrite, yields o s slot beats (extra + beats) w ∧
    (∃ v, w.apply s.me.regs = { s.me.regs with v := s.me.regs.v.set d v }) ∧
    ∀ i < 8192 / b, elemAt ((w.apply s.me.regs).vget d).toNat b i =
      if i < s.tileN ∧ m.getLsbD i = true then f i % 2 ^ (8 * b) else elemAt (s.rv d).toNat b i
/-- A form completes with one result for mD: bit `i` becomes `f i` where it lies in the tile and the mask admits it; every
other bit, and every other register, is as before; m0 discards (R325, R365). -/
def maskYields (o : Host.Outcome State Fault Refusal) (s : State) (beats : Nat) (d : MReg) (m : MaskVal)
    (f : Nat → Bool) : Prop :=
  ∃ w : RegWrite, yields o s 2 beats (2 + beats) w ∧
    (d = 0 → w.apply s.me.regs = s.me.regs) ∧
    (d ≠ 0 → (∃ v, w.apply s.me.regs = { s.me.regs with m := s.me.regs.m.set d v }) ∧
      ∀ i < 8192, ((w.apply s.me.regs).mget d).getLsbD i =
        if i < s.tileN ∧ m.getLsbD i = true then f i else (s.rm d).getLsbD i)

/-! Control. -/

/-- A bundle of one transfer ends, and no register and no byte of memory changes (R51, R85). The end test of its own bundle
counts. Where the transfer is taken, its target waits for the two delay bundles that follow in memory; where it is not,
control goes on as the end test says, and delay bundles are left only while control goes on in memory. -/
def departs (o : Host.Outcome State Fault Refusal) (s : State) (len : Nat) (taken : Bool) (target : Word)
    (kind : TransferKind) : Prop :=
  let next := s.me.pc + BitVec.ofNat 64 (4 * len)
  let e := endTest s.me.pc next s.me.loops
  let d : Delay := { left := 2, taken := taken, target := target, kind := kind }
  ∃ t, o = .next t ∧ t.me.regs = s.me.regs ∧ t.mem = s.mem ∧ t.me.loops = e.1 ∧
    (taken = true → t.me.pc = next ∧ t.me.delay = some d) ∧
    (taken = false → t.me.pc = e.2.1 ∧ t.me.delay = if e.2.1 = next then some d else none)
/-- The area that a trap of the acting context takes: it runs in user mode, a handler is installed and the area is the
free one of its cluster's pool (R216), at an address that memory answers. -/
def takesArea (s : State) (i : Nat) : Prop :=
  s.me.priv = false ∧ s.tvec ≠ 0 ∧ (s.cluster (clusterOf s.cur)).freeArea = some i ∧
    s.noPa (areaPa (s.cluster (clusterOf s.cur)) i) = false
/-- The address of area `i` of the acting context's cluster. -/
def areaOf (s : State) (i : Nat) : Word := BitVec.ofNat 64 (areaPa (s.cluster (clusterOf s.cur)) i)

/-! Memory. -/

/-- Every byte outside [a, a + n) reads as before. -/
def memFrame (s t : State) (a n : Nat) : Prop :=
  ∀ b, b < a ∨ a + n ≤ b → readByte t.mem b = readByte s.mem b
/-- Every byte of memory reads as before. -/
def memSame (s t : State) : Prop := ∀ b, readByte t.mem b = readByte s.mem b

/-- A load completes: its writes are those of an outstanding access, which returns 8 cycles later or more (R71); until
then no register changes, and no byte of memory ever does. -/
def loading (o : Host.Outcome State Fault Refusal) (s : State) (ws : List RegWrite) : Prop :=
  ∃ t, o = .next t ∧ t.me.regs = s.me.regs ∧ t.mem = s.mem ∧ ∃ a ∈ t.me.m0, a.writes = ws ∧ s.cycle + 8 ≤ a.due

/-! Engine jobs. -/

/-- The job that an instruction of the acting context starts (R187): identity, issuer, address space, mode, writer and
timestamp are the context's. -/
def newJob (s : State) (kind : JobKind) (domain : Nat) (foot : List FootRegion) (done : Completion) (seq : BitVec 16) :
    Job :=
  { id := s.nextId, kind := kind, loc := s.cur, work := s.me.work, task := s.me.task, root := s.me.ptroot
    user := !s.me.priv, wid := s.me.wid, pts := s.me.pts, seq := seq, domain := domain, foot := foot, completion := done
    started := false, pos := 0, failed := false, paused := false, request := none, refused := false, done := []
    src := [], quiesce := none, ending := none, ended := none, stale := [] }
/-- A form completes by handing the job `j` to its engine: slot E is held for a cycle, the copy sequence number advances
where the form takes one, the generation counter by `gen`, and nothing else changes. -/
def starts (o : Host.Outcome State Fault Refusal) (s : State) (j : Job) (taken : Bool) (gen : BitVec 16) : Prop :=
  ∃ t, o = .next t ∧ slotHeld s t 8 1 ∧
    t = { s with
      nextId := s.nextId + 1
      jobs := s.jobs ++ [j]
      generation := s.generation + gen
      me := { s.me with cseq := if taken then s.me.cseq + 1 else s.me.cseq }
      cores := t.cores }
/-- A form is kept from issue: its bundle has not issued (R87). -/
def holds (o : Host.Outcome State Fault Refusal) (s : State) : Prop :=
  ∃ t, o = .next t ∧ t.issue.hold = true ∧ t = { s with cores := t.cores, issue := t.issue }
/-- A form enters an engine wait (R87). -/
def waitsFor (o : Host.Outcome State Fault Refusal) (s : State) (w : Wait) : Prop :=
  ∃ t, o = .next t ∧ t.issue.wait = some w ∧ t = { s with cores := t.cores, issue := t.issue }
/-- A form completes without trap, wait or hold, and changes no register and no byte of memory. -/
def passes (o : Host.Outcome State Fault Refusal) (s : State) : Prop :=
  ∃ t, o = .next t ∧ t.issue = s.issue ∧ t.me.regs = s.me.regs ∧ t.me.inflight = s.me.inflight ∧ t.mem = s.mem

/-! Safe runs. -/

/-- A step that does not stop the machine: it faults or refuses only where the manual gives no effect. -/
def safeStep (s : State) : Prop := ∃ t, step s = .next t
/-- `n` steps from a state, none of which stops the machine. -/
def safeRun : Nat → State → Prop
  | 0, _ => True
  | n + 1, s => ∃ t, step s = .next t ∧ safeRun n t

end Sys2Proof.Machine
end

