-- ==== Sys2Proof/Certificates/Slice0/Obligations.lean ====
section
/-! DEFINITION. The statements for the provers. `bundled`, `alone`, `yields`, `idles`, `traps` and the frames are
those of Safety. -/

open Sys2Proof Sys2Proof.Machine

/-! Scalar integers. -/

/-- R324: SUB, OR, SHL, SHR, SHRA, ROT, MUL, MULH, MAX and MIN: value, poison, latency, occupancy, and nothing else
changes. -/
def Obligations.TenScalarForms : Prop :=
  ∀ (d a b : SReg) (g : PReg) (s : State), s.bundled → s.pr g = true →
    let x := s.rs a
    let y := s.rs b
    let po := s.rp a || s.rp b
    yields (exec (.sub d a b g) s) s 0 1 1 (.scalar d (BitVec.ofInt 64 (x.toInt - y.toInt)) po) ∧
    yields (exec (.or d a b g) s) s 0 1 1 (.scalar d (x ||| y) po) ∧
    yields (exec (.shl d a b g) s) s 0 1 1 (.scalar d (BitVec.ofNat 64 (x.toNat * 2 ^ y.toNat)) po) ∧
    yields (exec (.shr d a b g) s) s 0 1 1 (.scalar d (BitVec.ofNat 64 (x.toNat / 2 ^ y.toNat)) po) ∧
    yields (exec (.shra d a b g) s) s 0 1 1 (.scalar d (BitVec.ofInt 64 (x.toInt / 2 ^ min y.toNat 63)) po) ∧
    yields (exec (.rot d a b g) s) s 0 1 1
      (.scalar d ((x >>> (y.toNat % 64)) ||| (if y.toNat % 64 = 0 then 0 else x <<< (64 - y.toNat % 64))) po) ∧
    yields (exec (.mul d a b g) s) s 0 1 3 (.scalar d (BitVec.ofInt 64 (x.toInt * y.toInt)) po) ∧
    yields (exec (.mulh d a b g) s) s 0 1 3 (.scalar d (BitVec.ofInt 64 (x.toInt * y.toInt / 2 ^ 64)) po) ∧
    yields (exec (.max d a b g) s) s 0 1 1 (.scalar d (BitVec.ofInt 64 (max x.toInt y.toInt)) po) ∧
    yields (exec (.min d a b g) s) s 0 1 1 (.scalar d (BitVec.ofInt 64 (min x.toInt y.toInt)) po)

/-- R298 and R335: DIV and REM on signed words, with their three cases; the slot is held for 18 cycles whether the guard
is true or false. -/
def Obligations.DivideAndRemainder : Prop :=
  ∀ (d a b : SReg) (g : PReg) (s : State), s.bundled →
    let x := (s.rs a).toInt
    let y := (s.rs b).toInt
    let po := s.rp a || s.rp b
    (s.pr g = true →
      yields (exec (.div d a b g) s) s 0 18 18
        (.scalar d (BitVec.ofInt 64 (if y = 0 then -1 else if x = -2 ^ 63 ∧ y = -1 then -2 ^ 63 else x.tdiv y)) po) ∧
      yields (exec (.rem d a b g) s) s 0 18 18
        (.scalar d (BitVec.ofInt 64 (if y = 0 then x else if x = -2 ^ 63 ∧ y = -1 then 0 else x - y * x.tdiv y)) po)) ∧
    (s.pr g = false → idles (exec (.div d a b g) s) s 0 18 ∧ idles (exec (.rem d a b g) s) s 0 18)

/-- R280, R281, R328 and R379: ADD, AND, XOR and the immediate forms ADDI, ANDI, ORI and XORI, whose immediate is
sign-extended. -/
def Obligations.SumsAndLogic : Prop :=
  ∀ (d a b : SReg) (g : PReg) (imm : Int) (s : State), s.bundled →
    let x := s.rs a
    let y := s.rs b
    let i := BitVec.ofInt 64 imm
    (s.pr g = true →
      yields (exec (.add d a b g) s) s 0 1 1 (.scalar d (BitVec.ofNat 64 (x.toNat + y.toNat)) (s.rp a || s.rp b)) ∧
      yields (exec (.and d a b g) s) s 0 1 1 (.scalar d (x &&& y) (s.rp a || s.rp b)) ∧
      yields (exec (.xor d a b g) s) s 0 1 1 (.scalar d (x ^^^ y) (s.rp a || s.rp b))) ∧
    yields (exec (.addi d a imm) s) s 0 1 1 (.scalar d (BitVec.ofInt 64 (x.toInt + imm)) (s.rp a)) ∧
    yields (exec (.andi d a imm) s) s 0 1 1 (.scalar d (x &&& i) (s.rp a)) ∧
    yields (exec (.ori d a imm) s) s 0 1 1 (.scalar d (x ||| i) (s.rp a)) ∧
    yields (exec (.xori d a imm) s) s 0 1 1 (.scalar d (x ^^^ i) (s.rp a))

/-- R292, R331, R300, R338 and R321: CLZ, POPC, EXT, INS, SEL with either predicate, LI and LIH. The count of CLZ is the
`n` below which no bit from 63 downward is set; INS replaces the field and keeps every other bit. -/
def Obligations.BitAndMoveForms : Prop :=
  ∀ (d a b : SReg) (g : PReg) (imm : Int) (s : State), s.bundled → s.pr g = true →
    let x := s.rs a
    let pos := (s.rs b).toNat % 64
    let wd := (s.rs b).toNat / 256 % 64 + 1
    (∃ n ≤ 64, (∀ i < 64, 64 - n ≤ i → x.getLsbD i = false) ∧ (n < 64 → x.getLsbD (63 - n) = true) ∧
      yields (exec (.clz d a g) s) s 0 1 1 (.scalar d (BitVec.ofNat 64 n) (s.rp a))) ∧
    yields (exec (.popc d a g) s) s 0 1 1
      (.scalar d (BitVec.ofNat 64 ((List.range 64).countP fun i => x.getLsbD i)) (s.rp a)) ∧
    (∃ v : Word, (∀ i < 64, v.getLsbD i =
        if i < wd then x.getLsbD (pos + i) else ((s.rs b).getLsbD 16 && x.getLsbD (pos + wd - 1))) ∧
      yields (exec (.ext d a b g) s) s 0 1 1 (.scalar d v (s.rp a || s.rp b))) ∧
    (∃ v : Word, (∀ i < 64, v.getLsbD i =
        if pos ≤ i ∧ i < pos + wd then x.getLsbD (i - pos) else (s.rs d).getLsbD i) ∧
      yields (exec (.ins d a b g) s) s 0 1 1 (.scalar d v (s.rp d || s.rp a || s.rp b))) ∧
    yields (exec (.sel d a b g) s) s 0 1 1 (.scalar d (s.rs a) (s.rp a)) ∧
    (∀ p : PReg, s.pr p = false → yields (exec (.sel d a b p) s) s 0 1 1 (.scalar d (s.rs b) (s.rp b))) ∧
    yields (exec (.li d imm) s) s 0 1 1 (.scalar d (BitVec.ofInt 64 imm) false) ∧
    yields (exec (.lih d imm) s) s 0 1 1
      (.scalar d (BitVec.ofNat 64 ((imm % 2 ^ 32).toNat * 2 ^ 32 + (s.rs d).toNat % 2 ^ 32)) (s.rp d))

/-- R293: CMP and CMPI write the predicate of the named comparison and consult no poison bit. -/
def Obligations.Comparisons : Prop :=
  ∀ (d : PReg) (a b : SReg) (g : PReg) (imm : Int) (s : State), s.bundled →
    let x := s.rs a
    let y := s.rs b
    let i := BitVec.ofInt 64 imm
    (s.pr g = true →
      yields (exec (.cmpEq d a b g) s) s 0 1 1 (.pred d (decide (x = y))) ∧
      yields (exec (.cmpNe d a b g) s) s 0 1 1 (.pred d (decide (x ≠ y))) ∧
      yields (exec (.cmpLt d a b g) s) s 0 1 1 (.pred d (decide (x.toInt < y.toInt))) ∧
      yields (exec (.cmpLe d a b g) s) s 0 1 1 (.pred d (decide (x.toInt ≤ y.toInt))) ∧
      yields (exec (.cmpLtu d a b g) s) s 0 1 1 (.pred d (decide (x.toNat < y.toNat))) ∧
      yields (exec (.cmpLeu d a b g) s) s 0 1 1 (.pred d (decide (x.toNat ≤ y.toNat)))) ∧
    yields (exec (.cmpiEq d a imm) s) s 0 1 1 (.pred d (decide (x = i))) ∧
    yields (exec (.cmpiNe d a imm) s) s 0 1 1 (.pred d (decide (x ≠ i))) ∧
    yields (exec (.cmpiLt d a imm) s) s 0 1 1 (.pred d (decide (x.toInt < i.toInt))) ∧
    yields (exec (.cmpiLe d a imm) s) s 0 1 1 (.pred d (decide (x.toInt ≤ i.toInt))) ∧
    yields (exec (.cmpiLtu d a imm) s) s 0 1 1 (.pred d (decide (x.toNat < i.toNat))) ∧
    yields (exec (.cmpiLeu d a imm) s) s 0 1 1 (.pred d (decide (x.toNat ≤ i.toNat)))

/-- R330 and R325: PLOG on predicates, by the truth of both sources. -/
def Obligations.PredicateLogic : Prop :=
  ∀ (d a b g : PReg) (s : State), s.bundled → s.pr g = true →
    let x := s.pr a
    let y := s.pr b
    yields (exec (.plog d a .and b g) s) s 0 1 1 (.pred d (x && y)) ∧
    yields (exec (.plog d a .or b g) s) s 0 1 1 (.pred d (x || y)) ∧
    yields (exec (.plog d a .xor b g) s) s 0 1 1 (.pred d (x ^^ y)) ∧
    yields (exec (.plog d a .andn b g) s) s 0 1 1 (.pred d (x && !y)) ∧
    yields (exec (.plog d a .orn b g) s) s 0 1 1 (.pred d (x || !y)) ∧
    yields (exec (.plog d a .nand b g) s) s 0 1 1 (.pred d (!(x && y))) ∧
    yields (exec (.plog d a .nor b g) s) s 0 1 1 (.pred d (!(x || y))) ∧
    yields (exec (.plog d a .xnor b g) s) s 0 1 1 (.pred d (!(x ^^ y)))

/-! Scalar floating point and system registers. -/

/-- R297, R310, R311 and R312: the scalar floating forms read binary32 from the low halves, write a zero-extended result
after 4 cycles, and never trap. -/
def Obligations.ScalarFloats : Prop :=
  ∀ (d a b : SReg) (p : PReg) (cv : FcvtForm) (rm : Rounding) (sat : Bool) (g : PReg) (s : State),
    s.bundled → s.pr g = true →
    let x := fmtF32.decode ((s.rs a).toNat % 2 ^ 32)
    let y := fmtF32.decode ((s.rs b).toNat % 2 ^ 32)
    let z := fmtF32.decode ((s.rs d).toNat % 2 ^ 32)
    yields (exec (.fadd d a b g) s) s 0 1 4 (.scalar d (BitVec.ofNat 64 (fmtF32.rne (x.add y))) (s.rp a || s.rp b)) ∧
    yields (exec (.fmul d a b g) s) s 0 1 4 (.scalar d (BitVec.ofNat 64 (fmtF32.rne (x.mul y))) (s.rp a || s.rp b)) ∧
    yields (exec (.ffma d a b g) s) s 0 1 4
      (.scalar d (BitVec.ofNat 64 (fmtF32.rne ((x.mul y).add z))) (s.rp a || s.rp b || s.rp d)) ∧
    yields (exec (.fcmpEq p a b g) s) s 0 1 4 (.pred p (x.eq y == some true)) ∧
    yields (exec (.fcmpLt p a b g) s) s 0 1 4 (.pred p (x.lt y == some true)) ∧
    yields (exec (.fcmpLe p a b g) s) s 0 1 4 (.pred p (x.lt y == some true || x.eq y == some true)) ∧
    yields (exec (.fcmpUn p a b g) s) s 0 1 4 (.pred p (x.isNan || y.isNan)) ∧
    yields (exec (.fcvt d a cv rm sat g) s) s 0 1 4
      (.scalar d (convertScalar cv (modeOf rm s.me.srkey s.me.srorg) sat (s.rs a)) (s.rp a))

/-- R352, R353, R359 and R381: SYSR returns the register as it stands, with latency 3 and poison 0; a read clears TSLATE and
DSDROP; a privileged register traps in user mode; TSREAD gives the time step. Where the bundle has waited, both return what
they read at its first issue, and the read-clear counters keep what they have counted since. -/
def Obligations.SystemReads : Prop :=
  ∀ (d : SReg) (r : SysReg) (g : PReg) (s : State), s.bundled →
    let kept := s.issue.reads.lookup (s.slotOr 0)
    let reads (i : Instr) (v : Word) (tslate dsdrop : BitVec 32) : Prop :=
      ∃ t, exec i s = .next t ∧ slotHeld s t 0 1 ∧ lands s t 3 (.scalar d v false) ∧
        t.me.tslate = tslate ∧ t.me.dsdrop = dsdrop ∧
        t.issue = { s.issue with reads := s.issue.reads ++ [(s.slotOr 0, v)] } ∧
        t = { s with
          cores := t.cores
          issue := t.issue
          me := { s.me with inflight := t.me.inflight, tslate := t.me.tslate, dsdrop := t.me.dsdrop } }
    (sysPrivileged r = true → s.me.priv = false → s.issue.trap = none → traps (exec (.sysr d r) s) s 0x01 0x0A 0) ∧
    (sysPrivileged r = false ∨ s.me.priv = true →
      (kept = none → reads (.sysr d r) (s.sysr r) (if r = .tslate then 0 else s.me.tslate)
        (if r = .dsdrop then 0 else s.me.dsdrop)) ∧
      ∀ v, kept = some v → reads (.sysr d r) v
        (if r = .tslate then s.me.tslate - v.setWidth 32 else s.me.tslate)
        (if r = .dsdrop then s.me.dsdrop - v.setWidth 32 else s.me.dsdrop)) ∧
    (s.pr g = true →
      (kept = none → reads (.tsread d g) s.timeStep s.me.tslate s.me.dsdrop) ∧
      ∀ v, kept = some v → reads (.tsread d g) v s.me.tslate s.me.dsdrop)

/-- R352 and R353: a SYSW, alone in its bundle, has written its register when the next bundle issues; a register whose
fields are read-only ignores it. A privileged register is written in privileged mode; in user mode SYSW traps. SVPOOL keeps
its free count (R224), TSCTL requests deterministic mode and a step period for the next boundary (R83), and AROLO and AROHI
write one half of the entry that AROSEL selects (R168). That a read of TSCTL shows DETREQ at once is the model's choice (log
entry 128). -/
def Obligations.SystemWrites : Prop :=
  (∀ (a : SReg) (len : Nat) (s : State), s.alone len → s.roomy → s.me.delay = none →
     let x := s.rs a
     (∀ r ∈ ([(.srkey, x), (.srorg, x), (.fatab, x &&& 0x3FFFFF#64), (.memctl, x &&& 1#64),
         (.ceerr, if x.getLsbD 63 then 0 else s.me.ceerr)] : List (SysReg × Word)),
       ∃ t, exec (.sysw a r.1) s = .next t ∧ t.sysr r.1 = r.2 ∧ t.me.regs = s.me.regs ∧ t.mem = s.mem) ∧
     (∀ r ∈ ([.vyrev, .vyfeat, .ctxid, .gidx, .dswid, .dsdrop, .tslate, .cseq] : List SysReg),
       ∃ t, exec (.sysw a r) s = .next t ∧ t.sysr r = s.sysr r ∧ t.me.regs = s.me.regs ∧ t.mem = s.mem)) ∧
  (∀ (a : SReg) (len : Nat) (s : State), s.roomy → s.me.delay = none →
     let x := s.rs a
     (s.alone len → s.me.priv = true →
       ∀ r ∈ ([(.ptroot, x &&& 0xFFFFFFFFFF000#64), (.arosel, x &&& 0x3F#64), (.tvec, x &&& 0x1FFFFFFFFFFFFFC#64),
           (.svcur, x &&& 0xFFFFFFFF00000#64), (.stkerr, if x.getLsbD 63 then 0 else s.stkerr),
           (.fampst, s.me.fampst), (.arolo, x &&& 0x01FFFFFFFFE00000#64), (.arohi, x &&& 0x800000000003FFFF#64),
           (.tsctl, BitVec.ofNat 64 ((if x.getLsbD 63 then 2 ^ 63 else 0) + s.tsctl.toNat % 2 ^ 63)),
           (.svpool, x &&& 0xFFFFFFE000000#64 ||| BitVec.ofNat 64 (if x &&& 0xFFFFFFE000000#64 = 0 then 0
             else min 31 ((List.range 32).countP fun i => !(s.cluster (clusterOf s.cur)).areas.getLsbD i)))] :
             List (SysReg × Word)),
         ∃ t, exec (.sysw a r.1) s = .next t ∧ t.sysr r.1 = r.2 ∧ t.me.regs = s.me.regs ∧ t.mem = s.mem ∧
           t.logT = s.logT ∧ t.detAct = s.detAct ∧
           t.logTNext = (if r.1 = .tsctl ∧ 8 ≤ x.toNat % 32 ∧ x.toNat % 32 ≤ 16 then BitVec.ofNat 5 (x.toNat % 32)
             else s.logTNext) ∧
           (r.1 = .arolo → t.sysr .arohi = s.sysr .arohi) ∧ (r.1 = .arohi → t.sysr .arolo = s.sysr .arolo) ∧
           ∀ i : Fin 64, i.val ≠ s.arosel.toNat → t.aroTable[i] = s.aroTable[i]) ∧
     (s.bundled → s.me.priv = false → s.issue.trap = none →
       ∀ r : SysReg, sysPrivileged r = true → traps (exec (.sysw a r) s) s 0x01 0x0A 0))

/-- R112: EFR. At the end of the writing bundle the write stands in the list of pending writes with two bundles to go,
in place of another write of the same bundle; the end of each later bundle counts every pending write down, and one that
reaches zero is then in effect: bundles i+1 and i+2 use the old value, bundle i+3 the new one. A SYSW of EFR, alone in its
bundle, makes this write. -/
def Obligations.EngineFormatDelay : Prop :=
  (∀ (c : Ctx) (x : Word), (c.writeEfr x).efr = c.efr ∧
    (c.writeEfr x).efrPend = c.efrPend.filter (fun e => e.wait != 2) ++ [{ val := x &&& 0xFF0F#64, wait := 2 }]) ∧
  (∀ (c : Ctx) (x : Word), c.efrPend = [] →
    let c1 := (c.writeEfr x).tickEfr
    let c2 := c1.tickEfr
    c1.efr = c.efr ∧ c2.efr = x &&& 0xFF0F#64 ∧ c2.efrPend = []) ∧
  (∀ (a : SReg) (len : Nat) (s : State), s.alone len → s.roomy → s.me.delay = none →
    ∃ t, exec (.sysw a .efr) s = .next t ∧ t.me.efr = s.me.tickEfr.efr ∧
      t.me.efrPend = (s.me.tickEfr.writeEfr (s.rs a)).efrPend ∧ t.me.regs = s.me.regs ∧ t.mem = s.mem)

/-! Control. -/

/-- R51, R52, R289, R291, R317 and R336: BR, CHK, J, JR, RET and CALL alone in their bundle: taken or not, where they go, and
the two delay bundles that come first. CALL writes s63 with latency 1: the address after the second delay bundle, where both
can be fetched; what it is where one cannot is the model's choice (log entry 15) and not stated. In a delay bundle BR, CHK,
J, JR, RET and CALL trap with sub-code 0x07; a CALL has then put its result in flight, which the trap discards. That the end
test of a taken transfer's own bundle counts though control goes on in memory, and that an untaken transfer whose end test
goes back to a start leaves no delay bundle, is the model's reading (log entry 11). -/
def Obligations.ControlTransfers : Prop :=
  (∀ (neg : Bool) (p : PReg) (a : SReg) (disp : Int) (len : Nat) (s : State),
     s.alone len → s.roomy → s.me.delay = none →
     let there := BitVec.ofInt 64 ((s.me.pc.toInt + 4 * disp) % 2 ^ 57)
     let at_ (w : Word) := w &&& 0x01FFFFFFFFFFFFFC#64
     departs (exec (.br neg p disp) s) s len (s.pr p != neg) there .pops ∧
     departs (exec (.chk a disp) s) s len (s.rp a) there .pops ∧
     departs (exec (.j disp) s) s len true there .pops ∧
     departs (exec (.jr a p) s) s len (s.pr p) (at_ (s.rs a)) .pops ∧
     departs (exec (.ret p) s) s len (s.pr p) (at_ (s.rs 63)) .plain) ∧
  (∀ (disp : Int) (len n1 n2 : Nat) (s : State), s.alone len → s.roomy → s.me.delay = none →
     let d1 := s.me.pc + BitVec.ofNat 64 (4 * len)
     let d2 := d1 + BitVec.ofNat 64 (4 * n1)
     s.bundleLen d1 = some n1 → s.bundleLen d2 = some n2 →
     departs (exec (.call disp) s) s len true (BitVec.ofInt 64 ((s.me.pc.toInt + 4 * disp) % 2 ^ 57)) .plain ∧
     ∃ t, exec (.call disp) s = .next t ∧ lands s t 1 (.scalar 63 (d2 + BitVec.ofNat 64 (4 * n2)) false)) ∧
  (∀ (neg : Bool) (p : PReg) (a : SReg) (disp : Int) (s : State), s.bundled → s.me.delay.isSome = true →
     s.issue.trap = none →
     (∀ i ∈ ([.br neg p disp, .chk a disp, .j disp, .jr a p, .ret p] : List Instr), traps (exec i s) s 0x01 0x07 0) ∧
     ∃ t r, exec (.call disp) s = .next t ∧ t.issue.trap = some r ∧ r.cause = 0x01 ∧ r.sub = 0x07 ∧ r.addr = 0 ∧
       t = { s with cores := t.cores, issue := t.issue, me := { s.me with inflight := t.me.inflight } })

/-- R51, R86, R217 and R327, seen through NOP alone in a bundle: between a taken transfer and its target stand exactly
its delay bundles, the two that follow in memory; after the last, control is at the target, and a transfer that pops has
popped the loops the target lies outside. A transfer not taken changes nothing of the order; where the end test then sends
control back to a start, no delay bundle is left (log entry 11). NOP changes no register and no memory. -/
def Obligations.DelayBundles : Prop :=
  ∀ (g : PReg) (len : Nat) (d : Delay) (s : State), s.alone len → s.roomy →
    let next := s.me.pc + BitVec.ofNat 64 (4 * len)
    let e := endTest s.me.pc next s.me.loops
    (s.me.delay = none → ∃ t, exec (.nop g) s = .next t ∧ t.me.pc = e.2.1 ∧ t.me.loops = e.1 ∧ t.me.delay = none ∧
      t.me.regs = s.me.regs ∧ t.mem = s.mem) ∧
    (s.me.delay = some d → d.taken = true → 2 ≤ d.left → ∃ t, exec (.nop g) s = .next t ∧ t.me.pc = next ∧
      t.me.loops = s.me.loops ∧ t.me.delay = some { d with left := d.left - 1 }) ∧
    (s.me.delay = some d → d.taken = true → d.left = 1 → d.kind = .plain → ∃ t, exec (.nop g) s = .next t ∧
      t.me.pc = d.target ∧ t.me.loops = s.me.loops ∧ t.me.delay = none) ∧
    (s.me.delay = some d → d.taken = true → d.left = 1 → d.kind = .pops → ∃ t, exec (.nop g) s = .next t ∧
      t.me.pc = d.target ∧ t.me.loops = popLoops d.target s.me.loops ∧ t.me.delay = none) ∧
    (s.me.delay = some d → d.taken = false → ∃ t, exec (.nop g) s = .next t ∧ t.me.pc = e.2.1 ∧ t.me.loops = e.1 ∧
      t.me.delay = if e.2.1 = next ∧ 2 ≤ d.left then some { d with left := d.left - 1 } else none)

/-- R84, R85, R86, R322 and R323: LOOP and LOOPI push an entry whose body starts at the next bundle; a count of 0 pushes
nothing and goes on after the body; a full stack and a delay bundle trap. The end test, seen through NOP alone in a bundle:
where the bundle starts in the body and the next one lies at or above its end, one more pass is left or the entry is popped
and the next outer one is tested as it would be alone. LBRK alone in its bundle drops the innermost loop and goes to its end,
where the end test of the outer loops applies. That LOOP and LOOPI, which the table of R71 does not list, occupy their slot
for one cycle is the model's choice (log entry 82). -/
def Obligations.Loops : Prop :=
  (∀ (c : SReg) (count : Fin 4096) (len : Nat) (s : State), s.bundled → len ≠ 0 →
     let start := s.me.pc + BitVec.ofNat 64 (4 * s.issue.len)
     let stop := start + BitVec.ofNat 64 (4 * len)
     ∀ f ∈ ([(.loop c len, s.rs c), (.loopi count len, BitVec.ofNat 64 count.val)] : List (Instr × Word)),
       (s.me.delay = none → s.me.loops.length < 6 → f.2 ≠ 0 →
         ∃ t, exec f.1 s = .next t ∧ slotHeld s t 0 1 ∧
           t.me.loops = { start := start, stop := stop, remaining := f.2 } :: s.me.loops ∧
           t = { s with cores := t.cores, me := { s.me with loops := t.me.loops } }) ∧
       (s.me.delay = none → f.2 = 0 →
         ∃ t, exec f.1 s = .next t ∧ t.issue.skip = some stop ∧ t = { s with cores := t.cores, issue := t.issue }) ∧
       (s.issue.trap = none → s.me.delay = none → s.me.loops.length = 6 → f.2 ≠ 0 → traps (exec f.1 s) s 0x02 0x02 0) ∧
       (s.issue.trap = none → s.me.delay.isSome = true → traps (exec f.1 s) s 0x02 0x03 0)) ∧
  (∀ (g : PReg) (len : Nat) (s : State), s.alone len → s.roomy → s.me.delay = none →
     let next := s.me.pc + BitVec.ofNat 64 (4 * len)
     let goes (pc : Word) (l : List LoopEntry) : Prop :=
       ∃ t, exec (.nop g) s = .next t ∧ t.me.pc = pc ∧ t.me.loops = l ∧ t.me.delay = none ∧ t.me.regs = s.me.regs ∧
         t.mem = s.mem
     (s.me.loops = [] → goes next []) ∧
     ∀ e rest, s.me.loops = e :: rest →
       let ends := e.start ≤ s.me.pc ∧ s.me.pc < e.stop ∧ e.stop ≤ next
       (¬ ends → goes next (e :: rest)) ∧
       (ends → 1 < e.remaining → goes e.start ({ e with remaining := e.remaining - 1 } :: rest)) ∧
       (ends → e.remaining ≤ 1 →
         ∃ u, exec (.nop g) { s with me := { s.me with loops := rest } } = .next u ∧ goes u.me.pc u.me.loops)) ∧
  (∀ (g : PReg) (len : Nat) (e : LoopEntry) (rest : List LoopEntry) (s : State), s.alone len → s.roomy →
     s.me.delay = none → s.pr g = true → s.me.loops = e :: rest →
     ∃ t, exec (.lbrk g) s = .next t ∧ t.me.pc = (endTest s.me.pc e.stop rest).2.1 ∧
       t.me.loops = (endTest s.me.pc e.stop rest).1 ∧ t.me.delay = none ∧ t.me.regs = s.me.regs ∧ t.mem = s.mem)

/-- R316: HALT ends the work of its context, which is then Idle as after reset, unless a strict-ECC trap is still due. -/
def Obligations.HaltEndsContext : Prop :=
  ∀ (g : PReg) (len : Nat) (s : State), s.alone len → s.roomy → s.pr g = true →
    s.me.m0.any (·.ecc) = false → s.me.ecc = [] → s.me.eccLatched = [] →
    ∃ t, exec (.halt g) s = .next t ∧ t.ctx s.cur = Ctx.reset

/-! Exceptions. -/

/-- R210, R212, R216, R225 and R358: TRAP, alone in its bundle, takes its exception: the handler starts at TVEC in privileged
mode with the area's address in s1 and in SVCUR and the CAUSE word, cause 0x09 with the code, in s2; the loop stack is
empty. The area holds the pc and the loop stack that the end test of the TRAP bundle gives. -/
def Obligations.TrapEntersHandler : Prop :=
  ∀ (code : Fin 512) (len i : Nat) (s : State), s.alone len → s.roomy → s.me.delay = none → s.me.loops.length ≤ 6 →
    takesArea s i →
    let e := endTest s.me.pc (s.me.pc + BitVec.ofNat 64 (4 * len)) s.me.loops
    let a := areaPa (s.cluster (clusterOf s.cur)) i
    ∃ t, exec (.trap code) s = .next t ∧ t.me.priv = true ∧ t.me.pc = s.tvec ∧ t.me.svcur = areaOf s i ∧
      t.rs 1 = areaOf s i ∧ t.rs 2 = BitVec.ofNat 64 (0x09 + code.val * 256) ∧ t.me.loops = [] ∧ t.me.delay = none ∧
      (s.me.inflight = [] → s.me.m0 = [] → ∀ r : SReg, r ≠ 1 → r ≠ 2 → t.rs r = s.rs r) ∧
      loadBytes t.mem (a + 0x18) 8 = e.2.1.toNat ∧ loadBytes t.mem (a + 0xD0) 8 = e.1.length ∧
      ∀ k x, e.1[k]? = some x → loadBytes t.mem (a + 0x40 + 24 * k) 8 = x.start.toNat ∧
        loadBytes t.mem (a + 0x48 + 24 * k) 8 = x.stop.toNat ∧
        loadBytes t.mem (a + 0x50 + 24 * k) 8 = x.remaining.toNat

/-- R216: every trap of a context in privileged mode, and one that finds no handler or no free area, ends the context: it
is Idle as after reset. -/
def Obligations.TrapWithoutHandler : Prop :=
  ∀ (r : TrapInfo) (cs : Nat) (s : State),
    s.me.priv = true ∨ s.tvec = 0 ∨ (s.cluster (clusterOf s.cur)).freeArea = none →
    ∃ t, trapEnter s r cs = .next t ∧ t.ctx s.cur = Ctx.reset

/-- R225: a save writes every field of the layout: each field of `saveFields` reads back from the area. CAUSE, the faulting
address, the pc, the loop stack, EFR, VSHP, the registers of every kind and the latch records stand at the offsets that the
manual gives, whatever that list says. -/
def Obligations.SaveWritesEveryField : Prop :=
  ∀ (i reason cause addr : Nat) (latch : List Flight) (s : State), latch.length ≤ 64 → s.me.withdrawn.length ≤ 64 →
    let rd (o n : Nat) : Nat :=
      loadBytes (s.saveArea i reason cause addr latch).mem (areaPa (s.cluster (clusterOf s.cur)) i + o) n
    (∀ f ∈ saveFields s reason cause addr latch, rd f.1 f.2.1 = f.2.2 % 256 ^ f.2.1) ∧
    rd 0x08 8 = cause % 2 ^ 64 ∧ rd 0x10 8 = addr % 2 ^ 64 ∧ rd 0x18 8 = s.me.pc.toNat ∧ rd 0x38 8 = s.me.gidx.toNat ∧
    (s.me.loops.length ≤ 6 → rd 0xD0 8 = s.me.loops.length ∧ ∀ k x, s.me.loops[k]? = some x →
      rd (0x40 + 24 * k) 8 = x.start.toNat ∧ rd (0x48 + 24 * k) 8 = x.stop.toNat ∧
        rd (0x50 + 24 * k) 8 = x.remaining.toNat) ∧
    rd 0xD8 8 = s.me.efr.toNat ∧ rd 0xF8 8 = s.vshp.toNat ∧
    (∀ r : SReg, rd (0x100 + 8 * r.val) 8 = (s.rs r).toNat) ∧ rd 0x300 8 = s.me.regs.sp.toNat ∧
    rd 0x308 8 = s.me.regs.p.toNat ∧ (∀ r : EReg, rd (0xA00 + 64 * r.val) 64 = (s.me.regs.eget r).toNat) ∧
    (∀ r : MReg, rd (0x1000 + 1024 * r.val) 1024 = (s.rm r).toNat) ∧
    (∀ r : VReg, rd (0x10000 + 8192 * r.val) 8192 = (s.rv r).toNat) ∧
    ∀ k f, latch[k]? = some f →
      let head (code : Nat) (poison sel : Bool) : Prop :=
        rd (0x7F000 + 16 * k) 16 =
          code + f.due % 64 * 2 ^ 8 + (if poison then 2 ^ 14 else 0) + if sel then 2 ^ 15 else 0
      let val (n v : Nat) : Prop := rd (0x80000 + 8192 * k) n = v
      let map (m : Option MaskVal) : Prop := ∀ x, m = some x → rd (0x50000 + 1024 * k) 1024 = x.toNat
      (∀ d v po, f.w = .scalar d v po → head d.val po false ∧ val 8 v.toNat) ∧
      (∀ d v m, f.w = .vec d v m → head (0x40 + d.val) false m.isSome ∧ val 8192 v.toNat ∧ map m) ∧
      (∀ d v m, f.w = .mask d v m → head (0x60 + d.val) false m.isSome ∧ val 1024 v.toNat ∧ map m) ∧
      (∀ d v, f.w = .pred d v → head (0x70 + d.val) false false ∧ val 1 (if v then 1 else 0)) ∧
      (∀ d v, f.w = .scale d v → head (0x80 + d.val) false false ∧ val 64 v.toNat) ∧
      ∀ v, f.w = .shape v → head 0x90 false false ∧ val 8 v.toNat

/-- R214 and R73, for a context with no result waiting from an earlier freeze: the results due by the saved cycle are written
to their registers in the order in which they are visible; each later one becomes a record with its offset, its register,
its poison bit and what it would write, in the same order; none stays in flight. At the first bundle after a resume each
record is in flight again, due its offset after that bundle. -/
def Obligations.FreezeLatches : Prop :=
  (∀ (c : Ctx) (cs : Nat), c.m0 = [] → c.latched = [] →
    let late := c.inflight.filter fun f => cs < f.due
    let r := (c.freeze cs).1.regs
    r = (c.inflight.filter fun f => f.due ≤ cs).foldl (fun r f => f.w.apply r) c.regs ∧
    (c.freeze cs).1.inflight = [] ∧ (c.freeze cs).2.length = late.length ∧
    ∀ (k : Nat) (f g : Flight), late[k]? = some f → (c.freeze cs).2[k]? = some g →
      g.due = f.due - cs ∧ g.w.code = f.w.code ∧ g.w.poisoned = f.w.poisoned ∧ g.w.apply r = f.w.apply r ∧
        ((∀ d v sel, f.w ≠ .bits d v sel) → g.w = f.w)) ∧
  (∀ (c : Ctx) (n : Nat),
    let u := c.deliver n
    u.latched = [] ∧ u.regs = c.regs ∧ u.inflight.length = c.inflight.length + c.latched.length ∧
    (∀ f ∈ c.inflight, f ∈ u.inflight) ∧ ∀ f ∈ c.latched, ∃ g ∈ u.inflight, g.due = n + f.due ∧ g.w = f.w)

/-- R217 and R299: ERET in privileged mode departs as a control transfer; at the end of its second delay bundle, seen
through NOP alone, it gives back the saved pc and registers, leaves privileged mode and frees the area. In user mode it
traps. Where a loop's body ends at the ERET bundle, the end test is as log entry 11 says. That bits 1 and 0 of the saved
pc are cleared is the model's choice (log entry 83). -/
def Obligations.ReturnRestores : Prop :=
  (∀ (g : PReg) (len : Nat) (s : State), s.alone len → s.roomy → s.me.delay = none → s.me.priv = true →
    departs (exec (.eret g) s) s len (s.pr g) 0 .eret) ∧
  (∀ (g : PReg) (s : State), s.bundled → s.me.priv = false → s.issue.trap = none →
    traps (exec (.eret g) s) s 0x01 0x0A 0) ∧
  (∀ (s : State), let a := s.me.svcur.toNat
    s.noPa a = false → loadBytes s.mem a 2 = 0x0300 → loadBytes s.mem (a + 4) 1 = 0 →
    let returns (o : Host.Outcome State Fault Refusal) : Prop :=
      ∃ t, o = .next t ∧ t.me.priv = false ∧ t.mem = s.mem ∧
        t.me.pc = BitVec.ofNat 64 (loadBytes s.mem (a + 0x18) 8 / 4 * 4) ∧
        (∀ r : SReg, r ≠ 0 → t.rs r = BitVec.ofNat 64 (loadBytes s.mem (a + 0x100 + 8 * r.val) 8) ∧
          t.rp r = (loadBytes s.mem (a + 0x300) 8).testBit r.val) ∧
        (∀ r : VReg, t.rv r = BitVec.ofNat 65536 (loadBytes s.mem (a + 0x10000 + 8192 * r.val) 8192)) ∧
        (∀ i < 32, a = areaPa (s.cluster (clusterOf s.cur)) i → (s.cluster (clusterOf s.cur)).svbase ≠ 0 →
          (t.cluster (clusterOf s.cur)).areas.getLsbD i = false)
    returns (eretReturn s) ∧
    ∀ (g : PReg) (len : Nat) (d : Delay), s.alone len → s.roomy → s.me.delay = some d → d.taken = true → d.left = 1 →
      d.kind = .eret → returns (exec (.nop g) s))

/-! Vectors. -/

/-- R361, R362 and R363: VADD, VSUB, VMUL, VMAX, VMIN, VFMA, VABS, VNEG, VAND, VOR, VXOR, VSHL and VSHR element by element
under the mask guard; each arithmetic form rounds or wraps its exact result once. -/
def Obligations.VectorArithmetic : Prop :=
  ∀ (d a b : VReg) (fmt : VFmt) (m : MGuard) (s : State), s.bundled → shapeOk s.vshp = true → s.fmtFits fmt = true →
    let e := vfmtElem fmt
    let es := s.es
    let x (i : Nat) := elemAt (s.rv a).toNat es i
    let y (i : Nat) := elemAt (s.rv b).toNat es i
    let n := (shapeBytes s.vshp + 2047) / 2048
    let out (i : Instr) (extra : Nat) (f : Nat → Nat) := tileYields (exec i s) s 2 extra n d es (s.rg m) f
    out (.vadd d a b fmt m) 2 (fun i => encodeElem e ((e.val (x i)).add (e.val (y i)))) ∧
    out (.vsub d a b fmt m) 2 (fun i => encodeElem e ((e.val (x i)).add (e.val (y i)).neg)) ∧
    out (.vmul d a b fmt m) 2 (fun i => encodeElem e ((e.val (x i)).mul (e.val (y i)))) ∧
    out (.vmax d a b fmt m) 2 (fun i => encodeElem e ((e.val (x i)).max (e.val (y i)))) ∧
    out (.vmin d a b fmt m) 2 (fun i => encodeElem e ((e.val (x i)).min (e.val (y i)))) ∧
    out (.vfma d a b fmt m) 4 (fun i =>
      encodeElem e (((e.val (x i)).mul (e.val (y i))).add (e.val (elemAt (s.rv d).toNat es i)))) ∧
    out (.vabs d a fmt m) 2 (fun i => encodeElem e (e.val (x i)).abs) ∧
    out (.vneg d a fmt m) 2 (fun i => encodeElem e (e.val (x i)).neg) ∧
    out (.vand d a b fmt m) 2 (fun i => x i &&& y i) ∧
    out (.vor d a b fmt m) 2 (fun i => x i ||| y i) ∧
    out (.vxor d a b fmt m) 2 (fun i => x i ^^^ y i) ∧
    out (.vshl d a b fmt m) 2 (fun i => x i * 2 ^ y i) ∧
    out (.vshr d a b fmt m) 2 (fun i => x i / 2 ^ y i)

/-- R361, R364, R366, R370, R372 and R378: VMOV, VSEL, VPERM, VTRANS, VEXPD, VBCAST and VIOTA move elements as their
entries say. -/
def Obligations.VectorMoves : Prop :=
  ∀ (d a b : VReg) (q : SReg) (fmt : VFmt) (m : MGuard) (s : State), s.bundled → shapeOk s.vshp = true →
    s.fmtFits fmt = true →
    let es := s.es
    let rows := shapeRows s.vshp
    let cols := shapeCols s.vshp
    let x (i : Nat) := elemAt (s.rv a).toNat es i
    let y (i : Nat) := elemAt (s.rv b).toNat es i
    let n := (shapeBytes s.vshp + 2047) / 2048
    let out (i : Instr) (extra : Nat) (f : Nat → Nat) := tileYields (exec i s) s 2 extra n d es (s.rg m) f
    out (.vmov d a fmt m) 2 x ∧
    tileYields (exec (.vsel d a b fmt m) s) s 2 2 n d es (BitVec.allOnes 8192)
      (fun i => if (s.rg m).getLsbD i then x i else y i) ∧
    out (.vperm d a b fmt m) 6 (fun i => if y i < rows * cols then x (y i) else 0) ∧
    out (.vtrans d a fmt m) 6 (fun j => x (j % rows * cols + j / rows)) ∧
    out (.vexpd d a fmt m) 6 (fun i => x ((List.range i).countP fun j => (s.rg m).getLsbD j)) ∧
    out (.vbcast d q m) 2 (fun _ => (s.rs q).toNat) ∧
    out (.viota d q m) 2 (fun i => encodeElem s.tileElem (ofInt ((s.rs q).toInt + (i : Nat)) 0 false))

/-- R367 and R371: VCVT converts every element of the tile to the format it names, VUNPK gives the value of a packed
element, and VPACK writes the packed codes of the admitted elements and no other bit. -/
def Obligations.VectorConversions : Prop :=
  ∀ (d a : VReg) (sat : Bool) (rm : Rounding) (pk : PackFmt) (fmt : VFmt) (m : MGuard) (s : State),
    s.bundled → shapeOk s.vshp = true →
    let x (i : Nat) := elemAt (s.rv a).toNat s.es i
    let n := (shapeBytes s.vshp + 2047) / 2048
    let ds := (vfmtElem fmt).bytes
    (s.tileN * ds ≤ 8192 →
      tileYields (exec (.vcvt d a sat rm fmt m) s) s 2 3 ((s.tileN * max s.es ds + 2047) / 2048) d ds (s.rg m)
        (fun i => convertElem s.tileElem (vfmtElem fmt) (s.elemMode rm i) sat (x i))) ∧
    (s.fmtFits fmt = true →
      tileYields (exec (.vunpk d a rm pk fmt m) s) s 2 3 n d s.es (s.rg m)
        (fun i => convertVal (vfmtElem fmt) (s.elemMode rm i) (unpackVal s.me.efr pk (s.rv a).toNat i)) ∧
      ∃ w : RegWrite, yields (exec (.vpack d a rm pk fmt m) s) s 2 n (3 + n) w ∧
        ∀ i, packWidth pk * (i + 1) ≤ 65536 →
          ((w.apply s.me.regs).vget d).toNat / 2 ^ (packWidth pk * i) % 2 ^ packWidth pk =
            if i < s.tileN ∧ (s.rg m).getLsbD i = true then
              packCode s.me.efr pk (s.elemMode rm i) ((vfmtElem fmt).val (x i)) % 2 ^ packWidth pk
            else (s.rv d).toNat / 2 ^ (packWidth pk * i) % 2 ^ packWidth pk)

/-- R325 and R365: VCMP and MLOG write the bits of the tile that the mask guard admits, and MPOP counts them. A NaN makes
NE true and the others false. -/
def Obligations.MaskForms : Prop :=
  ∀ (d p q : MReg) (a b : VReg) (c : SReg) (fn : LogFn) (fmt : VFmt) (m : MGuard) (s : State),
    s.bundled → shapeOk s.vshp = true →
    let e := vfmtElem fmt
    let x (i : Nat) := e.val (elemAt (s.rv a).toNat s.es i)
    let y (i : Nat) := e.val (elemAt (s.rv b).toNat s.es i)
    let n := (shapeBytes s.vshp + 2047) / 2048
    let out (i : Instr) (f : Nat → Bool) := maskYields (exec i s) s n d (s.rg m) f
    (s.fmtFits fmt = true →
      out (.vcmpEq d a b fmt m) (fun i => (x i).eq (y i) == some true) ∧
      out (.vcmpNe d a b fmt m) (fun i => (x i).eq (y i) != some true) ∧
      out (.vcmpLt d a b fmt m) (fun i => (x i).lt (y i) == some true) ∧
      out (.vcmpLe d a b fmt m) (fun i => (x i).eq (y i) == some true || (x i).lt (y i) == some true)) ∧
    out (.mlog d p q fn m) (fun i => logFn fn ((s.rm p).getLsbD i) ((s.rm q).getLsbD i)) ∧
    yields (exec (.mpop p c m) s) s 2 n (2 + n) (.scalar c
      (BitVec.ofNat 64 ((List.range s.tileN).countP fun i => (s.rg m).getLsbD i && (s.rm p).getLsbD i)) false)

/-- R375, R117, R118 and R366: VRED writes the first element of each row and VREDC that of each column, VSCAN every
prefix, and VCOMP closes up the admitted elements, fills the tile with zeros, leaves the bytes behind the tile, and
counts them. -/
def Obligations.VectorReductions : Prop :=
  ∀ (d a : VReg) (op : RedOp) (c : SReg) (fmt : VFmt) (m : MGuard) (s : State), s.bundled → shapeOk s.vshp = true →
    let e := vfmtElem fmt
    let es := s.es
    let rows := shapeRows s.vshp
    let cols := shapeCols s.vshp
    let x (i : Nat) := elemAt (s.rv a).toNat es i
    let n := (shapeBytes s.vshp + 2047) / 2048
    let row (r : Nat) := (List.range cols).map fun k => r * cols + k
    let col (k : Nat) := (List.range rows).map fun r => r * cols + k
    let count := (List.range s.tileN).countP fun i => (s.rg m).getLsbD i
    (s.fmtFits fmt = true →
      (∃ w : RegWrite, yields (exec (.vred d a op fmt m) s) s 2 n (6 + n) w ∧ ∀ i < 8192 / es,
        elemAt ((w.apply s.me.regs).vget d).toNat es i =
          if i < s.tileN ∧ i % cols = 0 then s.reduced a op e (s.rg m) (row (i / cols)) % 2 ^ (8 * es)
          else elemAt (s.rv d).toNat es i) ∧
      (∃ w : RegWrite, yields (exec (.vredc d a op fmt m) s) s 2 n (6 + n) w ∧ ∀ i < 8192 / es,
        elemAt ((w.apply s.me.regs).vget d).toNat es i =
          if i < cols then s.reduced a op e (s.rg m) (col i) % 2 ^ (8 * es) else elemAt (s.rv d).toNat es i) ∧
      tileYields (exec (.vscan d a op fmt m) s) s 2 6 n d es (BitVec.allOnes 8192) (fun i =>
        let l := s.redInputs a op e (s.rg m) (row (i / cols))
        encodeElem e (((scanSteps (redStep op e) (ceilLog l.length) 1 l)[i % cols]?).getD .nan))) ∧
    ∃ t f g, exec (.vcomp d a c m) s = .next t ∧ slotHeld s t 2 n ∧ onlyResults s t ∧
      (∀ h, h ∈ t.me.inflight ↔ h = f ∨ h = g ∨ h ∈ s.me.inflight) ∧
      f.due = s.cycle + 6 + n ∧ g.due = s.cycle + 6 + n ∧ g.w = .scalar c (BitVec.ofNat 64 count) false ∧
      (∀ i < s.tileN, (s.rg m).getLsbD i = true →
        elemAt ((f.w.apply s.me.regs).vget d).toNat es ((List.range i).countP fun j => (s.rg m).getLsbD j) = x i) ∧
      (∀ j, count ≤ j → j < s.tileN → elemAt ((f.w.apply s.me.regs).vget d).toNat es j = 0) ∧
      ∀ b, s.tileN * es ≤ b → b < 8192 → elemAt ((f.w.apply s.me.regs).vget d).toNat 1 b = elemAt (s.rv d).toNat 1 b

/-- R373, R376 and R377: VPUSH appends the tile's bytes in entries of 256, or raises schedule fault 0x04 and pushes
nothing; VRNG gives each element its bits of the hash at its coordinate, and VRNG.lc counts once; VSHAPE sets VSHP, or traps
on a shape that no tile has. -/
def Obligations.ShapesAndStreams : Prop :=
  ∀ (d a : VReg) (k : SReg) (fifoB : Bool) (fmt : VFmt) (m : MGuard) (s : State), s.bundled →
    let n := (shapeBytes s.vshp + 2047) / 2048
    let u := (s.core (coreOf s.cur)).fa
    let old := if fifoB then u.fifoB else u.fifoA
    let more := (shapeBytes s.vshp + 255) / 256
    (s.fmtFits fmt = true → old.length + more ≤ 32 →
      ∃ t, exec (.vpush fifoB a fmt) s = .next t ∧ t = { s with cores := t.cores } ∧
        let u' := (t.core (coreOf s.cur)).fa
        let new := if fifoB then u'.fifoB else u'.fifoA
        new.take old.length = old ∧ new.length = old.length + more ∧
        ∀ i < more, (new[old.length + i]?.map (·.2)) =
          some (BitVec.ofNat 2048 ((s.rv a).toNat % 2 ^ (8 * shapeBytes s.vshp) / 2 ^ (2048 * i)))) ∧
    (s.fmtFits fmt = true → 32 < old.length + more → s.issue.trap = none →
      traps (exec (.vpush fifoB a fmt) s) s 0x02 0x04 0) ∧
    (shapeOk s.vshp = true → k ≠ 63 →
      tileYields (exec (.vrngCo d k m) s) s 2 6 n d s.es (s.rg m) (fun i =>
        rng32 (s.rs k) (coordAt (s.rs (k + 1)) (i / shapeCols s.vshp) (i % shapeCols s.vshp)) / 2 ^ (32 - 8 * s.es))) ∧
    (∃ t w, exec (.vrngLc d k m) s = .next t ∧ slotHeld s t 2 n ∧ lands s t (6 + n) w ∧
      t = { s with
        me := { s.me with inflight := t.me.inflight, lcnt := s.me.lcnt + 1 }
        cores := t.cores } ∧
      (∃ v, w.apply s.me.regs = { s.me.regs with v := s.me.regs.v.set d v }) ∧
      (shapeOk s.vshp = true → ∀ i < 8192 / s.es, elemAt ((w.apply s.me.regs).vget d).toNat s.es i =
        if i < s.tileN ∧ (s.rg m).getLsbD i = true then
          rng32 (s.rs k) (BitVec.ofNat 64 ((s.ctxid s.cur).toNat % 2 ^ 22 * 2 ^ 42 + s.me.lcnt.toNat * 2 ^ 14 + i)) /
            2 ^ (32 - 8 * s.es)
        else elemAt (s.rv d).toNat s.es i)) ∧
    (shapeOk (s.rs k) = true → yields (exec (.vshape k) s) s 2 1 3 (.shape (s.rs k))) ∧
    (shapeOk (s.rs k) = false → s.issue.trap = none → traps (exec (.vshape k) s) s 0x0B 0x70 0)

/-- R339, R71 and R52: the eight special functions act on every admitted element with their recurrence and take 6 cycles,
4 for each iteration, and the beats; a format of another element size than the tile's raises sub-code 0x0B. -/
def Obligations.SpecialFunctions : Prop :=
  ∀ (d a : VReg) (k : Fin 8) (fmt : SfFmt) (m : MGuard) (s : State), s.bundled → shapeOk s.vshp = true →
    let n := (shapeBytes s.vshp + 2047) / 2048
    ∀ f ∈ ([(.sfrcp d a k fmt m, sfRcp), (.sfrsq d a k fmt m, sfRsq), (.sfexp d a k fmt m, sfExp),
        (.sflog d a k fmt m, sfLog), (.sftanh d a k fmt m, sfTanh), (.sfsig d a k fmt m, sfSig),
        (.sfsin d a k fmt m, sfSin), (.sfcos d a k fmt m, sfCos)] : List (Instr × (Nat → Val → Val))),
      (sfBytes fmt = s.es → ∃ w : RegWrite, yields (exec f.1 s) s 5 n (6 + 4 * k.val + n) w ∧
        ∀ i < 8192 / s.es, elemAt ((w.apply s.me.regs).vget d).toNat s.es i =
          if i < s.tileN ∧ (s.rg m).getLsbD i = true then
            (sfFmt fmt).rne (f.2 k.val ((sfFmt fmt).decode (elemAt (s.rv a).toNat s.es i))) % 2 ^ (8 * s.es)
          else elemAt (s.rv d).toNat s.es i) ∧
      (sfBytes fmt ≠ s.es → s.issue.trap = none → traps (exec f.1 s) s 0x01 0x0B 0)

/-! Scratchpad accesses. -/

/-- R340, R341, R71 and R172: SLD reads the bytes of its bank at the exact offset; the result, with the poison bit of the
line, lands after 3 cycles. A bank fault traps with its sub-code, then a misaligned offset with 0x60. Bytes and poison are
those that core ports see: what an engine port writes in the same cycle comes after them (R152). -/
def Obligations.BankLoads : Prop :=
  ∀ (d : SReg) (bank : Bank) (x : SReg) (off : Nat) (s : State), s.bundled →
    let imm := off * 64
    let reg := (s.rs x).toNat + off * 64
    ∀ f ∈ ([(.sldI8 d bank off, 1, true, imm), (.sldU8 d bank off, 1, false, imm), (.sldI16 d bank off, 2, true, imm),
        (.sldI32 d bank off, 4, true, imm), (.sldI64 d bank off, 8, true, imm),
        (.sldI8Regoff d bank x off, 1, true, reg), (.sldU8Regoff d bank x off, 1, false, reg),
        (.sldI16Regoff d bank x off, 2, true, reg), (.sldI32Regoff d bank x off, 4, true, reg),
        (.sldI64Regoff d bank x off, 8, true, reg)] : List (Instr × Nat × Bool × Nat)),
      let n := f.2.1
      let o := f.2.2.2
      let data := loadBytes s.coreMem (scratchPa s.myCluster bank.val o) n
      let v : Word := if f.2.2.1 then BitVec.ofInt 64 (sgn (8 * n) data) else BitVec.ofNat 64 data
      let line := scratchPa s.myCluster bank.val (o / 64 * 64)
      (s.bankFault bank.val o n = none → o % n = 0 →
        (∃ t, exec f.1 s = .next t ∧ lands s t 3 (.scalar d v (s.sramRead line false).2) ∧ t.me.regs = s.me.regs ∧
          t.mem = s.mem) ∧
        (s.late = [] → s.coreMem = s.mem) ∧
        (s.faults = [] → s.portPoison line false = false → yields (exec f.1 s) s 7 1 3 (.scalar d v false)) ∧
        (s.faults = [] → s.portPoison line false = true → s.me.memctl.getLsbD 0 = true →
          ∃ t, exec f.1 s = .next t ∧ t.me.ecc = s.me.ecc ++ [s.cycle + 3])) ∧
      (s.issue.trap = none →
        (∀ sub, s.bankFault bank.val o n = some sub → traps (exec f.1 s) s 0x03 sub 0) ∧
        (s.bankFault bank.val o n = none → o % n ≠ 0 → traps (exec f.1 s) s 0x0B 0x60 0))

/-- R340, R341, R344 and R172: SST stores the low bytes of its register, SSTV the tile; those bytes and no others change.
A poisoned SST source poisons the line. On a line that an engine port writes in the same cycle its write prevails (R152). -/
def Obligations.BankStores : Prop :=
  ∀ (d : SReg) (v : VReg) (bank : Bank) (x : SReg) (off : Nat) (s : State), s.bundled →
    let imm := off * 64
    let reg := (s.rs x).toNat + off * 64
    (∀ f ∈ ([(.sstI8 d bank off, 1, imm), (.sstI16 d bank off, 2, imm), (.sstI32 d bank off, 4, imm),
        (.sstI64 d bank off, 8, imm), (.sstI8Regoff d bank x off, 1, reg), (.sstI16Regoff d bank x off, 2, reg),
        (.sstI32Regoff d bank x off, 4, reg), (.sstI64Regoff d bank x off, 8, reg)] : List (Instr × Nat × Nat)),
      let n := f.2.1
      let o := f.2.2
      let pa := scratchPa s.myCluster bank.val o
      (s.bankFault bank.val o n = none → o % n = 0 →
        ∃ t, exec f.1 s = .next t ∧ t.me.regs = s.me.regs ∧ t.me.inflight = s.me.inflight ∧
          (s.late = [] → loadBytes t.mem pa n = (s.rs d).toNat % 2 ^ (8 * n) ∧ memFrame s t pa n) ∧
          (∀ a, a < pa ∨ pa + n ≤ a → (∀ x ∈ s.late, x.line ≠ a / 64) → readByte t.mem a = readByte s.mem a) ∧
          (s.faults = [] → s.late = [] → (t.line pa).poison = (s.rp d || (s.line pa).poison))) ∧
      (s.issue.trap = none →
        (∀ sub, s.bankFault bank.val o n = some sub → traps (exec f.1 s) s 0x03 sub 0) ∧
        (s.bankFault bank.val o n = none → o % n ≠ 0 → traps (exec f.1 s) s 0x0B 0x60 0))) ∧
    ∀ f ∈ ([(.sstv v bank off, imm), (.sstvRegoff v bank x off, reg)] : List (Instr × Nat)),
      let n := shapeBytes s.vshp
      let pa := scratchPa s.myCluster bank.val f.2
      (s.bankFault bank.val f.2 n = none → f.2 % 64 = 0 →
        ∃ t, exec f.1 s = .next t ∧ t.me.regs = s.me.regs ∧ t.me.inflight = s.me.inflight ∧
          (s.late = [] → loadBytes t.mem pa n = (s.rv v).toNat % 2 ^ (8 * n) ∧ memFrame s t pa n) ∧
          ∀ a, a < pa ∨ pa + n ≤ a → (∀ x ∈ s.late, x.line ≠ a / 64) → readByte t.mem a = readByte s.mem a) ∧
      (s.issue.trap = none →
        (∀ sub, s.bankFault bank.val f.2 n = some sub → traps (exec f.1 s) s 0x03 sub 0) ∧
        (s.bankFault bank.val f.2 n = none → f.2 % 64 ≠ 0 → traps (exec f.1 s) s 0x0B 0x60 0))

/-- R342, R343, R344 and R71: SLDV loads the tile, SLDT its transpose, and SLDS a scale register, where no line of the
access is poisoned; the offset is aligned to 64. They read what core ports see in the cycle (R152). -/
def Obligations.BankTiles : Prop :=
  ∀ (v : VReg) (e : EReg) (bank : Bank) (x : SReg) (off : Nat) (s : State), s.bundled → shapeOk s.vshp = true →
    let imm := off * 64
    let reg := (s.rs x).toNat + off * 64
    let es := s.es
    let bytes := shapeBytes s.vshp
    let beats := (bytes + 1023) / 1024
    let pa (o : Nat) : Nat := scratchPa s.myCluster bank.val o
    let tile (o : Nat) : Nat := loadBytes s.coreMem (pa o) bytes
    (s.late = [] → s.coreMem = s.mem) ∧
    (∀ f ∈ ([(.sldv v bank off, imm, fun i => i), (.sldvRegoff v bank x off, reg, fun i => i),
        (.sldt v bank off, imm, fun i => i % shapeCols s.vshp * shapeRows s.vshp + i / shapeCols s.vshp),
        (.sldtRegoff v bank x off, reg, fun i => i % shapeCols s.vshp * shapeRows s.vshp + i / shapeCols s.vshp)] :
        List (Instr × Nat × (Nat → Nat))),
      let o := f.2.1
      (s.bankFault bank.val o bytes = none → o % 64 = 0 →
        (s.faults = [] → (∀ i < (bytes + 63) / 64, s.portPoison (pa o + 64 * i) false = false) →
          tileYields (exec f.1 s) s 7 4 beats v es (BitVec.allOnes 8192) (fun i => elemAt (tile o) es (f.2.2 i))) ∧
        ∃ t w, exec f.1 s = .next t ∧ lands s t (4 + beats) w ∧ t.me.regs = s.me.regs ∧ t.mem = s.mem) ∧
      (s.issue.trap = none →
        (∀ sub, s.bankFault bank.val o bytes = some sub → traps (exec f.1 s) s 0x03 sub 0) ∧
        (s.bankFault bank.val o bytes = none → o % 64 ≠ 0 → traps (exec f.1 s) s 0x0B 0x60 0))) ∧
    ∀ f ∈ ([(.slds e bank off, imm), (.sldsRegoff e bank x off, reg)] : List (Instr × Nat)),
      let data := loadBytes s.coreMem (pa f.2) 64
      (s.bankFault bank.val f.2 64 = none → f.2 % 64 = 0 →
        (s.faults = [] → s.portPoison (pa f.2) false = false →
          yields (exec f.1 s) s 7 1 3 (.scale e (BitVec.ofNat 512 data))) ∧
        ∃ t, exec f.1 s = .next t ∧ lands s t 3 (.scale e (BitVec.ofNat 512 data)) ∧ t.me.regs = s.me.regs ∧
          t.mem = s.mem) ∧
      (s.issue.trap = none →
        (∀ sub, s.bankFault bank.val f.2 64 = some sub → traps (exec f.1 s) s 0x03 sub 0) ∧
        (s.bankFault bank.val f.2 64 = none → f.2 % 64 ≠ 0 → traps (exec f.1 s) s 0x0B 0x60 0))

/-! Global memory. -/

/-- R63, R318, R319, R171, R237 and R71: LD and LDS. At a resident page the value and a true residency predicate are the
writes of an access that returns 8 cycles later or more; at an absent page zero and a false predicate. An LD that is
misaligned or refused or meets a fourth mark traps; an LDS then delivers a poisoned zero and a false predicate, and never
traps. That the value is that of memory in the step of the bundle, though it returns later, is the model's choice (log entry
4). -/
def Obligations.GlobalLoads : Prop :=
  ∀ (d b x : SReg) (p : PReg) (imm : Int) (s : State), s.bundled →
    let ea (n : Nat) : Word := s.rs b + BitVec.ofInt 64 (imm * n)
    let ix : Word := s.rs b + s.rs x
    ∀ f ∈ ([(.ldI8 d b imm, false, true, 1, 7, ea 1), (.ldU8 d b imm, false, false, 1, 7, ea 1),
        (.ldI16 d b imm, false, true, 2, 7, ea 2), (.ldI32 d b imm, false, true, 4, 7, ea 4),
        (.ldI64 d b imm, false, true, 8, 7, ea 8), (.ldI8Index d b x p, false, true, 1, p, ix),
        (.ldU8Index d b x p, false, false, 1, p, ix), (.ldI16Index d b x p, false, true, 2, p, ix),
        (.ldI32Index d b x p, false, true, 4, p, ix), (.ldI64Index d b x p, false, true, 8, p, ix),
        (.ldsI8 d b imm, true, true, 1, 7, ea 1), (.ldsU8 d b imm, true, false, 1, 7, ea 1),
        (.ldsI16 d b imm, true, true, 2, 7, ea 2), (.ldsI32 d b imm, true, true, 4, 7, ea 4),
        (.ldsI64 d b imm, true, true, 8, 7, ea 8), (.ldsI8Index d b x p, true, true, 1, p, ix),
        (.ldsU8Index d b x p, true, false, 1, p, ix), (.ldsI16Index d b x p, true, true, 2, p, ix),
        (.ldsI32Index d b x p, true, true, 4, p, ix), (.ldsI64Index d b x p, true, true, 8, p, ix)] :
        List (Instr × Bool × Bool × Nat × PReg × Word)),
      let lds := f.2.1
      let sg := f.2.2.1
      let n := f.2.2.2.1
      let q := f.2.2.2.2.1
      let va := f.2.2.2.2.2
      let c := s.chaseMe va .read
      let r := (s.occupy 6 1).loadAt c
      let data := r.data / 2 ^ (8 * (c.x.pa % 64)) % 2 ^ (8 * n)
      let loads (ws : List RegWrite) : Prop := loading (exec f.1 s) s ws
      let refused := va.toNat % n ≠ 0 ∨ c.x.st = .format ∨ c.x.st = .protect ∨ c.x.st = .chain
      (va.toNat % n = 0 → c.x.st = .ok →
        loads [.scalar d (extendLoad sg n data) r.poison, .pred q true] ∧
        (Memory.wf s.mem = true → s.l1 = [] → s.early = [] →
          (cacheable c.x.pa = true ∨ s.faults = [] ∧ s.inRetired c.x.pa = false) → c.x.pa % n = 0 →
          data = loadBytes s.mem c.x.pa n)) ∧
      (va.toNat % n = 0 → c.x.st = .absent → loads [.scalar d 0 false, .pred q false]) ∧
      (refused → lds = true → loads [.scalar d 0 true, .pred q false]) ∧
      (va.toNat % n ≠ 0 → lds = false → s.issue.trap = none → traps (exec f.1 s) s 0x0B 0x60 va) ∧
      (va.toNat % n = 0 → lds = false → s.issue.trap = none →
        (c.x.st = .format ∨ c.x.st = .protect → traps (exec f.1 s) s 0x06 0x01 va) ∧
        (c.x.st = .chain → traps (exec f.1 s) s 0x05 0x01 (va + c.delta)))

/-- R350, R166, R167 and R181: ST writes the low bytes of its register at the place its address reaches and nothing else;
under the deterministic store rule an older writer's store is dropped and counted. A misaligned store traps with 0x60, a
refused one with 0x03, one that meets a fourth mark with cause 0x05 (R237); at an absent page the bundle waits, and where the
request is refused it traps with 0x02, whatever has become of the page since. -/
def Obligations.GlobalStores : Prop :=
  ∀ (d b x : SReg) (g : PReg) (imm : Int) (s : State), s.bundled → s.pr g = true →
    let ea (n : Nat) : Word := s.rs b + BitVec.ofInt 64 (imm * n)
    let ix : Word := s.rs b + s.rs x
    ∀ f ∈ ([(.stI8 d b imm, 1, ea 1), (.stI16 d b imm, 2, ea 2), (.stI32 d b imm, 4, ea 4), (.stI64 d b imm, 8, ea 8),
        (.stI8Index d b x g, 1, ix), (.stI16Index d b x g, 2, ix), (.stI32Index d b x g, 4, ix),
        (.stI64Index d b x g, 8, ix)] : List (Instr × Nat × Word)),
      let n := f.2.1
      let va := f.2.2
      let c := s.chaseMe va .write
      (va.toNat % n = 0 → c.x.st = .ok → s.detDrops s.me.wid c.x.e c.x.pa = false →
        s.issue.woken ≠ some .refused →
        ∃ t, exec f.1 s = .next t ∧ loadBytes t.mem c.x.pa n = (s.rs d).toNat % 2 ^ (8 * n) ∧
          memFrame s t c.x.pa n ∧ t.me.regs = s.me.regs ∧ t.me.inflight = s.me.inflight ∧
          (s.rp d = true → (t.line c.x.pa).poison = true)) ∧
      (va.toNat % n = 0 → c.x.st = .ok → s.detDrops s.me.wid c.x.e c.x.pa = true → s.issue.woken ≠ some .refused →
        ∃ t, exec f.1 s = .next t ∧ t.mem = s.mem ∧ t.me.regs = s.me.regs ∧ t.me.inflight = s.me.inflight ∧
          t.me.dsdrop = if s.me.dsdrop = BitVec.allOnes 32 then s.me.dsdrop else s.me.dsdrop + 1) ∧
      (va.toNat % n = 0 → c.x.st = .absent → s.issue.woken ≠ some .refused → s.issue.wait = none →
        ∃ t, exec f.1 s = .next t ∧ t.issue.wait = some (.page (va + c.delta)) ∧
          t = { s with cores := t.cores, issue := t.issue }) ∧
      (s.issue.trap = none →
        (va.toNat % n ≠ 0 → traps (exec f.1 s) s 0x0B 0x60 va) ∧
        (va.toNat % n = 0 → s.issue.woken = some .refused → traps (exec f.1 s) s 0x06 0x02 va) ∧
        (va.toNat % n = 0 → s.issue.woken ≠ some .refused →
          (c.x.st = .format ∨ c.x.st = .protect → traps (exec f.1 s) s 0x06 0x03 va) ∧
          (c.x.st = .chain → traps (exec f.1 s) s 0x05 0x01 (va + c.delta))))

/-- R282, R283 and R71: AMO replaces the number in memory by the operation's result on it and the operand, and delivers
the old number, sign-extended, poisoned where its line is (R171, R172). CAS writes only where the number equals the next
register, and has no d of 63. A misaligned or refused AMO and one that meets a fourth mark trap (R237); at an absent page the
bundle waits, and it traps where the request is refused (R167). -/
def Obligations.Atomics : Prop :=
  ∀ (d b : SReg) (imm : Int) (s : State), s.bundled → Memory.wf s.mem = true →
    let signed (w x : Nat) : Int := if 2 * x < 2 ^ w then (x : Int) else (x : Int) - 2 ^ w
    let add (w old x : Nat) : Nat := (old + x) % 2 ^ w
    let min_ (w old x : Nat) : Nat := if signed w old ≤ signed w x then old else x
    let max_ (w old x : Nat) : Nat := if signed w old ≤ signed w x then x else old
    ∀ f ∈ ([(.amoAddI64 d b imm, 8, add), (.amoAddI32 d b imm, 4, add),
        (.amoAndI64 d b imm, 8, fun _ old x => old &&& x), (.amoAndI32 d b imm, 4, fun _ old x => old &&& x),
        (.amoOrI64 d b imm, 8, fun _ old x => old ||| x), (.amoOrI32 d b imm, 4, fun _ old x => old ||| x),
        (.amoXorI64 d b imm, 8, fun _ old x => old ^^^ x), (.amoXorI32 d b imm, 4, fun _ old x => old ^^^ x),
        (.amoMinI64 d b imm, 8, min_), (.amoMinI32 d b imm, 4, min_), (.amoMaxI64 d b imm, 8, max_),
        (.amoMaxI32 d b imm, 4, max_), (.amoSwapI64 d b imm, 8, fun _ _ x => x), (.amoSwapI32 d b imm, 4, fun _ _ x => x),
        (.amoCasI64 d b imm, 8, fun _ _ x => x), (.amoCasI32 d b imm, 4, fun _ _ x => x)] :
        List (Instr × Nat × (Nat → Nat → Nat → Nat))),
      let n := f.2.1
      let va : Word := s.rs b + BitVec.ofInt 64 (imm * n)
      let c := s.chaseMe va .write
      let old := loadBytes s.mem c.x.pa n
      let cas := f.1 = .amoCasI64 d b imm ∨ f.1 = .amoCasI32 d b imm
      let writes := cas → old = (s.rs (d + 1)).toNat % 2 ^ (8 * n)
      let po := (s.line c.x.pa).poison || s.expired c.x.e (s.sliceStamp c.x.e c.x.pa)
      (va.toNat % n = 0 → c.x.st = .ok → (cas → d ≠ 63) → s.issue.woken ≠ some .refused →
        ∃ t, exec f.1 s = .next t ∧ t.me.regs = s.me.regs ∧ memFrame s t c.x.pa n ∧
          (c.x.pa % n = 0 → s.early = [] → (cacheable c.x.pa = true ∨ s.faults = [] ∧ s.inRetired c.x.pa = false) →
            (∃ o ∈ t.me.m0, o.writes = [.scalar d (BitVec.ofInt 64 (signed (8 * n) old)) po] ∧ s.cycle + 8 ≤ o.due) ∧
            (writes → loadBytes t.mem c.x.pa n = f.2.2 (8 * n) old ((s.rs d).toNat % 2 ^ (8 * n)) % 2 ^ (8 * n)) ∧
            (¬ writes → t.mem = s.mem))) ∧
      (va.toNat % n = 0 → c.x.st = .absent → (cas → d ≠ 63) → s.issue.woken ≠ some .refused → s.issue.wait = none →
        waitsFor (exec f.1 s) s (.page (va + c.delta))) ∧
      (s.issue.trap = none → (cas → d ≠ 63) →
        (va.toNat % n ≠ 0 → traps (exec f.1 s) s 0x0B 0x60 va) ∧
        (va.toNat % n = 0 → s.issue.woken = some .refused → traps (exec f.1 s) s 0x06 0x02 va) ∧
        (va.toNat % n = 0 → s.issue.woken ≠ some .refused →
          (c.x.st = .format ∨ c.x.st = .protect → traps (exec f.1 s) s 0x06 0x03 va) ∧
          (c.x.st = .chain → traps (exec f.1 s) s 0x05 0x01 (va + c.delta)))) ∧
      (s.issue.trap = none → cas → d = 63 → traps (exec f.1 s) s 0x01 0x09 0)

/-- R320, R368, R171, R237, R238 and R71: LDV and VGATHER deliver each element from its line or its own address; an absent
one is zero, and the mask register, unless it is m0, tells which elements are resident and unpoisoned. LDV asks for the
rewrite of its base by the delta of its first line, VGATHER for none. A refused page, a misaligned address, a fourth mark
and a tile of more than 2048 elements trap. That the elements are those of memory in the step of the bundle is the model's
choice (log entry 4). -/
def Obligations.VectorLoads : Prop :=
  ∀ (v x : VReg) (b : SReg) (m : MReg) (imm : Int) (scaled : Bool) (s : State), s.bundled → shapeOk s.vshp = true →
    let es := s.es
    let n := s.tileN
    let lines := (shapeBytes s.vshp + 63) / 64
    let va : Word := s.rs b + BitVec.ofInt 64 (imm * 64)
    let la (i : Nat) : Word := va + BitVec.ofNat 64 (64 * i)
    let ea (i : Nat) : Word := s.rs b + BitVec.ofNat 64 (elemAt (s.rv x).toNat 4 i * (if scaled then es else 1))
    let line (i : Nat) : Chased := s.chaseMe (la i) .read
    let place (i : Nat) : Chased := s.chaseMe (ea i) .read
    let here (c : Chased) : Prop := c.x.st = .ok ∨ c.x.st = .absent
    let refused (c : Chased) : Prop := c.x.st = .format ∨ c.x.st = .protect
    let first (p : Nat → Prop) (j : Nat) : Prop := p j ∧ ∀ i < j, ¬ p i
    let delivers (f : Instr) (at_ : Nat → Chased × Nat) (rewrite : Option (SReg × Word)) : Prop :=
      ∃ t, exec f s = .next t ∧ t.me.regs = s.me.regs ∧ t.mem = s.mem ∧
        t.issue = { s.issue with rewrite := rewrite } ∧
        ∃ o ∈ t.me.m0, ∃ w rest, o.writes = w :: rest ∧ s.cycle + 8 ≤ o.due ∧
          (m = 0 → rest = []) ∧ (m ≠ 0 → rest.length = 1) ∧
          (∀ i, n ≤ i → i < 8192 / es →
            elemAt ((w.apply s.me.regs).vget v).toNat es i = elemAt (s.rv v).toNat es i) ∧
          ∀ i < n,
            let c := (at_ i).1
            let off := (at_ i).2
            let elem := elemAt ((w.apply s.me.regs).vget v).toNat es i
            let bit (k : RegWrite) : Bool := ((k.apply s.me.regs).mget m).getLsbD i
            (c.x.st = .absent → elem = 0 ∧ ∀ k ∈ rest, bit k = false) ∧
            (c.x.st = .ok → Memory.wf s.mem = true → s.l1 = [] → s.early = [] →
              (cacheable c.x.pa = true ∨ s.faults = [] ∧ s.inRetired c.x.pa = false) →
              (c.x.pa % 64 + off + es ≤ 64 → elem = loadBytes s.mem (c.x.pa + off) es) ∧
              (s.faults = [] → leafEph c.x.e = false → ∀ k ∈ rest, bit k = !(s.line c.x.pa).poison))
    (va.toNat % 64 = 0 → (∀ i < lines, here (line i)) →
      delivers (.ldv v b m imm) (fun i => (line (i * es / 64), i * es % 64))
        (if (line 0).delta = 0 ∨ b = 0 then s.issue.rewrite else some (b, s.rs b + (line 0).delta))) ∧
    (n ≤ 2048 → (∀ i < n, (ea i).toNat % es = 0 ∧ here (place i)) →
      delivers (.vgather v b m scaled x) (fun i => (place i, 0)) s.issue.rewrite) ∧
    (s.issue.trap = none →
      (va.toNat % 64 ≠ 0 → traps (exec (.ldv v b m imm) s) s 0x0B 0x60 va) ∧
      (va.toNat % 64 = 0 → (∀ i < lines, (line i).x.st ≠ .hole) →
        (∀ j < lines, first (fun i => (line i).x.st = .chain) j →
          traps (exec (.ldv v b m imm) s) s 0x05 0x01 (la j + (line j).delta)) ∧
        ((∀ i < lines, (line i).x.st ≠ .chain) → ∀ j < lines, first (fun i => refused (line i)) j →
          traps (exec (.ldv v b m imm) s) s 0x06 0x01 (la j))) ∧
      (2048 < n → traps (exec (.vgather v b m scaled x) s) s 0x0B 0x74 0) ∧
      (n ≤ 2048 →
        (∀ j < n, first (fun i => (ea i).toNat % es ≠ 0) j →
          traps (exec (.vgather v b m scaled x) s) s 0x0B 0x60 (ea j)) ∧
        ((∀ i < n, (ea i).toNat % es = 0 ∧ (place i).x.st ≠ .hole) →
          (∀ j < n, first (fun i => (place i).x.st = .chain) j →
            traps (exec (.vgather v b m scaled x) s) s 0x05 0x01 (ea j + (place j).delta)) ∧
          ((∀ i < n, (place i).x.st ≠ .chain) → ∀ j < n, first (fun i => refused (place i)) j →
            traps (exec (.vgather v b m scaled x) s) s 0x06 0x01 (ea j)))))

/-- R351, R369 and R350: STV writes the masked bytes of each line and VSCATTER the masked elements in ascending order; no
other byte changes. A misaligned address, a fourth mark (R237), a page that refuses the access and a tile of more than 2048
elements trap, in that order of the checks; at the first absent page the bundle waits, and it traps where the request is
refused (R167). -/
def Obligations.VectorStores : Prop :=
  ∀ (v x : VReg) (b : SReg) (m : MReg) (imm : Int) (scaled : Bool) (s : State), s.bundled → shapeOk s.vshp = true →
    let es := s.es
    let bytes := shapeBytes s.vshp
    let va : Word := s.rs b + BitVec.ofInt 64 (imm * 64)
    let lines := s.lineChases va bytes .write
    let at_ (i : Nat) : Nat := ((lines[i]?).map fun c => c.x.pa / 64 * 64).getD 0
    let ids := (List.range s.tileN).filter fun i => (s.rm m).getLsbD i
    let sel (i : Nat) : Prop := (s.rm m).getLsbD i = true
    let first (c p : Nat → Prop) (j : Nat) : Prop := (c j ∧ p j) ∧ ∀ i < j, c i → ¬ p i
    let stops (f : Instr) (n : Nat) (c : Nat → Prop) (a : Nat → Word) : Prop :=
      let place (i : Nat) : Chased := s.chaseMe (a i) .write
      let refused (i : Nat) : Prop := (place i).x.st = .format ∨ (place i).x.st = .protect
      let never (p : Nat → Prop) : Prop := ∀ i < n, c i → ¬ p i
      never (fun i => (place i).x.st = .hole) →
        (s.issue.woken ≠ some .refused → s.issue.trap = none →
          (∀ j < n, first c (fun i => (place i).x.st = .chain) j → traps (exec f s) s 0x05 0x01 (a j + (place j).delta)) ∧
          (never (fun i => (place i).x.st = .chain) → ∀ j < n, first c refused j → traps (exec f s) s 0x06 0x03 (a j))) ∧
        (s.issue.woken ≠ some .refused → never (fun i => (place i).x.st = .chain) → never refused →
          ∀ j < n, first c (fun i => (place i).x.st = .absent) j → s.issue.wait = none →
            waitsFor (exec f s) s (.page (a j + (place j).delta))) ∧
        (s.issue.woken = some .refused → s.issue.trap = none →
          (∀ j < n, first c (fun i => (place i).x.st = .absent) j → traps (exec f s) s 0x06 0x02 (a j)) ∧
          (never (fun i => (place i).x.st = .absent) → ∀ h asked, s.me.held = some h → h.wait = .page asked →
            traps (exec f s) s 0x06 0x02 asked))
    let ea (i : Nat) : Word := s.rs b + BitVec.ofNat 64 (elemAt (s.rv x).toNat 4 i * (if scaled then es else 1))
    (s.detAct = false → s.issue.woken ≠ some .refused → Memory.wf s.mem = true → va.toNat % 64 = 0 →
      (∀ c ∈ lines, c.x.st = .ok) → (∀ i < lines.length, ∀ j < lines.length, i ≠ j → at_ i ≠ at_ j) →
      ∃ t, exec (.stv v b m imm) s = .next t ∧ t.me.regs = s.me.regs ∧
        (∀ a, (∀ i < lines.length, a < at_ i ∨ at_ i + 64 ≤ a) → readByte t.mem a = readByte s.mem a) ∧
        ∀ i < lines.length, ∀ j < 64, readByte t.mem (at_ i + j) =
          if 64 * i + j < bytes ∧ (s.rm m).getLsbD ((64 * i + j) / es) = true
          then BitVec.ofNat 8 ((s.rv v).toNat / 256 ^ (64 * i + j)) else readByte s.mem (at_ i + j)) ∧
    (s.detAct = false → s.issue.woken ≠ some .refused → s.tileN ≤ 2048 →
      (∀ i ∈ ids, (ea i).toNat % es = 0 ∧ (s.chaseMe (ea i) .write).x.st = .ok) →
      ∃ t, exec (.vscatter v b m scaled x) s = .next t ∧ t.me.regs = s.me.regs ∧
        t.mem = ids.foldl (fun k i => storeBytes k (s.chaseMe (ea i) .write).x.pa es (elemAt (s.rv v).toNat es i)) s.mem) ∧
    (s.issue.trap = none →
      (va.toNat % 64 ≠ 0 → traps (exec (.stv v b m imm) s) s 0x0B 0x60 va) ∧
      (2048 < s.tileN → traps (exec (.vscatter v b m scaled x) s) s 0x0B 0x74 0) ∧
      (s.tileN ≤ 2048 → ∀ j < s.tileN, first sel (fun i => (ea i).toNat % es ≠ 0) j →
        traps (exec (.vscatter v b m scaled x) s) s 0x0B 0x60 (ea j))) ∧
    (va.toNat % 64 = 0 → stops (.stv v b m imm) ((bytes + 63) / 64) (fun _ => True) (fun i => va + BitVec.ofNat 64 (64 * i))) ∧
    (s.tileN ≤ 2048 → (∀ i < s.tileN, sel i → (ea i).toNat % es = 0) →
      stops (.vscatter v b m scaled x) s.tileN sel ea)

/-! Forms of slot E. -/

/-- R332, R237, R314, R186 and R357: PREF fills its line and changes nothing that an access finds: no register, no byte of
memory, no copy that a load takes its value from. FLUSH leaves the copies of its line in the core's L1 and in the slice valid
and clean. Both hold their base while they chase. FLUSH, the fences and the TLBINV forms have no effect on any register, on
any byte of memory or on control. A translation that reads its tables in a bank may find errors of the stacked layers there
(R21). TLBINV is privileged whatever its guard and checks its operands. That a fence finds nothing to wait for, that memory
holds already what a FLUSH writes back and what a fill of PREF is are the model's reading (log entries 4, 7 and 8); that PREF
and FLUSH, which the table of R71 does not list, occupy their slot for one cycle is its choice (log entry 82). -/
def Obligations.HintsFencesInvalidations : Prop :=
  ∀ (b x a l : SReg) (imm : Int) (g : PReg) (s : State), s.bundled →
    let quiet (c : Chased) (t : State) : Prop :=
      let calm := { s with
        cores := t.cores, l1 := t.l1, l2 := t.l2, freeCount := t.freeCount, me := { s.me with m0 := t.me.m0 } }
      (c.tables = [] → t = calm) ∧
      t = { calm with
        early := t.early, faults := t.faults, corrections := t.corrections, errorCounts := t.errorCounts
        stkerr := t.stkerr, retired := t.retired, busFaults := t.busFaults, mgmt := t.mgmt }
    let fills (i : Instr) (va : Word) : Prop :=
      ∃ t, exec i s = .next t ∧ slotHeld s t 6 1 ∧ quiet (s.chaseMe va .read) t ∧
        (∀ k ∈ s.l1, k ∈ t.l1) ∧ (∀ k ∈ t.l1, k ∈ s.l1 ∨ k.pref = true ∧ k.core = coreOf s.cur) ∧
        (∀ o ∈ s.me.m0, o ∈ t.me.m0) ∧ (∀ o ∈ t.me.m0, o ∈ s.me.m0 ∨ o.writes = []) ∧
        let c := s.chaseMe va .read
        c.x.st = .ok → inHbm c.x.pa = true → leafHome c.x.e = 0 → s.l1 = [] → (s.line c.x.pa).readCount = 0 →
          ∃ k ∈ t.l1, k.line = c.x.pa / 64
    fills (.pref b imm) (s.rs b + BitVec.ofInt 64 (imm * 64)) ∧
    (s.pr g = true → fills (.prefIndex b x g) (s.rs b + s.rs x)) ∧
    (∃ t, exec (.flush b imm) s = .next t ∧ slotHeld s t 6 1 ∧
      let c := s.chaseMe ((s.rs b + BitVec.ofInt 64 (imm * 64)) &&& ~~~63#64) .read
      let line := c.x.pa / 64
      quiet c t ∧ (∀ o ∈ s.me.m0, o ∈ t.me.m0) ∧ (∀ o ∈ t.me.m0, o ∈ s.me.m0 ∨ o.writes = []) ∧
      (c.gens = [] → (c.x.st = .ok → leafMov c.x.e = false) → t.me = s.me) ∧
      t.l1 = (s.l1.map fun (k : L1Copy) =>
        if c.x.st = .ok ∧ k.core = coreOf s.cur ∧ k.line = line then { k with dirty := false } else k) ∧
      t.l2 = s.l2.map fun (k : L2Line) => if c.x.st = .ok ∧ k.line = line then { k with dirty := false } else k) ∧
    idles (exec (.fenceEng g) s) s 8 1 ∧ idles (exec (.fenceSys g) s) s 8 1 ∧
    let base := (s.rs a).toNat
    let len := (s.rs l).toNat
    let rangeOk := base % 4096 = 0 ∧ len % 4096 = 0 ∧ 0 < len ∧ len ≤ 2 ^ 57 ∧ base < 2 ^ 57
    let rootOk := base % 4096 = 0 ∧ base < 2 ^ 52
    (s.me.priv = true →
      idles (exec (.tlbinvAll g) s) s 8 1 ∧
      (s.pr g = false ∨ rangeOk → idles (exec (.tlbinvVa a l g) s) s 8 1) ∧
      (s.pr g = false ∨ rootOk → idles (exec (.tlbinvAs a g) s) s 8 1) ∧
      (s.pr g = true → s.issue.trap = none →
        (¬ rangeOk → traps (exec (.tlbinvVa a l g) s) s 0x0B 0x73 0) ∧
        (¬ rootOk → traps (exec (.tlbinvAs a g) s) s 0x0B 0x73 0))) ∧
    (s.me.priv = false → s.issue.trap = none →
      ∀ i ∈ ([.tlbinvAll g, .tlbinvVa a l g, .tlbinvAs a g] : List Instr), traps (exec i s) s 0x01 0x0A 0)

/-- R277: with a false guard the scalar forms, HALT and LBRK among them, the stores in index form and the forms of slot
E, in privileged mode FAMPW too, do nothing but hold their slot. That a store in index form and PREF, which the table of
R71 does not list, hold it for one cycle is the model's choice (log entry 82). -/
def Obligations.FalseGuards : Prop :=
  (∀ (d a b : SReg) (p q r : PReg) (fn : LogFn) (cv : FcvtForm) (rm : Rounding) (sat : Bool) (g : PReg) (s : State),
     s.bundled → s.pr g = false →
     ∀ i ∈ ([.add d a b g, .sub d a b g, .and d a b g, .or d a b g, .xor d a b g, .shl d a b g, .shr d a b g,
         .shra d a b g, .rot d a b g, .mul d a b g, .mulh d a b g, .max d a b g, .min d a b g, .ext d a b g,
         .ins d a b g, .clz d a g, .popc d a g, .cmpEq p a b g, .cmpNe p a b g, .cmpLt p a b g, .cmpLe p a b g,
         .cmpLtu p a b g, .cmpLeu p a b g, .plog p q fn r g, .fadd d a b g, .fmul d a b g, .ffma d a b g,
         .fcmpEq p a b g, .fcmpLt p a b g, .fcmpLe p a b g, .fcmpUn p a b g, .fcvt d a cv rm sat g, .tsread d g,
         .nop g, .lbrk g, .halt g] : List Instr),
       idles (exec i s) s 0 1) ∧
  (∀ (a b c : SReg) (p : AReg) (i : Fin 4) (fmt : FaFmt) (sub q : Bool) (k : Fin 16) (blk : Fin 8) (n : Fin 64) (g : PReg)
     (s : State), s.bundled → s.pr g = false →
     (∀ f ∈ ([.stI8Index a b c g, .stI16Index a b c g, .stI32Index a b c g, .stI64Index a b c g,
         .prefIndex a b g] : List Instr),
       idles (exec f s) s 6 1) ∧
     (∀ f ∈ ([.cpy a b g, .cegeo a b i g, .fapar a b p g, .fawait g, .fastat a g, .fafmt sub fmt g, .binit a b g,
         .bexp a b g, .barv a g, .btest a b g, .bwait a q g, .bankgive a b k g, .task a b g, .tdep a n g, .tswait a g,
         .smap a b g, .sunmap a b g, .swb a b g, .preq a b g, .reloc a b g, .msweep a b g, .rsgo a b g, .rsprog a b g,
         .coll a b g, .pcnt a b g, .pwait a n g, .pcancel a b g] : List Instr), idles (exec f s) s 8 1) ∧
     idles (exec (.spawn a b blk g) s) s 8 2 ∧ idles (exec (.spawnJoin a g) s) s 8 2 ∧
     (s.me.priv = true → idles (exec (.fampw a b g) s) s 8 1))

/-- R204, R232, R345, R354, R356 and R305: CPY, RELOC, MSWEEP, SMAP, SUNMAP, SWB, TASK, TDEP and FAMPW hand their job to
its engine with the geometry and sequence number of the moment. -/
def Obligations.EngineCommands : Prop :=
  ∀ (d a : SReg) (n : Fin 64) (g : PReg) (s : State), s.bundled → s.pr g = true →
    let geo := s.me.gShadow
    let x := (s.rs d).toNat
    let y := (s.rs a).toNat
    let len := bits geo[0].toNat 31 0
    let dom := bits geo[4].toNat 15 0
    let root := s.me.ptroot.toNat
    let written (base len : Nat) : FootRegion :=
      { scratch := false, space := root, base := base, len := len, write := true }
    let job (kind : JobKind) (domain : Nat) (foot : List FootRegion) (done : Completion) (seq : BitVec 16) :=
      newJob s kind domain foot done seq
    (∀ de se done, copyEnd (s.rs d) = some de → copyEnd (s.rs a) = some se →
      geoCompletion s.myCluster geo[3] = some done → geometryOk geo = true → len ≠ 0 →
      (bits geo[0].toNat 47 32 = 0 ∨ len ≤ geo[2].toNat) →
      endTooLong de (copyExtent geo geo[2]) = false → endTooLong se (copyExtent geo geo[1]) = false →
      s.endTrap de (copyExtent geo geo[2]) = none → s.endTrap se (copyExtent geo geo[1]) = none →
      (s.copiesIn s.myCluster < 64 → s.trackingFull = false →
        starts (exec (.cpy d a g) s) s (job (.copy (s.rs d) (s.rs a) geo) dom
          [s.endRegion se (copyExtent geo geo[1]) false, s.endRegion de (copyExtent geo geo[2]) true] done s.me.cseq)
          true 0) ∧
      (64 ≤ s.copiesIn s.myCluster ∨ s.trackingFull = true → holds (exec (.cpy d a g) s) s)) ∧
    (∀ done, geoCompletion s.myCluster geo[3] = some done → s.relocHeld = false →
      (x % 4096 = 0 → y % 4096 = 0 → x < 2 ^ 57 → y < 2 ^ 57 → len ≠ 0 → len % 4096 = 0 → bits geo[0].toNat 47 32 = 0 →
        geo[1] = 0 → geo[2] = 0 → bits geo[4].toNat 23 16 = 0 → geometryOk geo = true → (y + len ≤ x ∨ x + len ≤ y) →
        starts (exec (.reloc d a g) s) s (job (.reloc (s.rs d) (s.rs a) len s.generation.toNat) dom
          [written y len, written x len] done s.me.cseq) true 1) ∧
      (x % 64 = 0 → y % 64 = 0 → y ≠ 0 → y < 2 ^ 40 → x < 2 ^ 57 →
        starts (exec (.msweep d a g) s) s (job (.msweep (s.rs d) y) dom [written x y] done s.me.cseq) true 0)) ∧
    (∀ b o done, scratchWord (s.rs a) = some (b, o) → geoCompletion s.myCluster geo[3] = some done →
      s.mapHeld = false → geo[0].toNat < 2 ^ 32 → bits geo[3].toNat 63 62 = 0 → geo[4].toNat < 2 ^ 24 →
      s.runFault (b * 0x300000 + o) len o = none →
      starts (exec (.smap d a g) s) s (job (.smap (s.rs d) (b * 0x300000 + o) len) dom
        [{ scratch := false, space := root, base := x, len := len, write := false },
         { scratch := true, space := s.myCluster, base := b * 0x300000 + o, len := len, write := true }] done s.me.cseq)
        true 0) ∧
    (∀ pa, barrierWord s.myCluster (s.rs d) = some pa → s.mapHeld = false →
      (∃ foot, starts (exec (.sunmap d a g) s) s (job (.swb (s.rs a) true) 0 foot (.barrier pa) s.me.cseq) true 0) ∧
      ∃ foot, starts (exec (.swb d a g) s) s (job (.swb (s.rs a) false) 0 foot (.barrier pa) s.me.cseq) true 0) ∧
    (x % 64 = 0 → x < 2 ^ 57 → y < 2 ^ 14 → bits y 7 6 = 0 →
      starts (exec (.task d a g) s) s (job (.task (s.rs d) (y % 64) (y / 256 % 64)) 0 [] .none 0) false 0) ∧
    (x < 4096 → starts (exec (.tdep d n g) s) s (job (.tdep x (n.val + 1)) 0 [] .none 0) false 0) ∧
    (s.me.priv = true → x % 4096 = 0 → x < 2 ^ 57 → ∀ pa, barrierWord s.myCluster (s.rs a) = some pa →
      starts (exec (.fampw d a g) s) s (job (.fampw (s.rs d)) 0
        [{ scratch := false, space := root, base := x, len := 2 ^ 20, write := false }] (.barrier pa) 0) false 0) ∧
    (s.issue.trap = none →
      (copyEnd (s.rs d) = none → s.copiesIn s.myCluster < 64 → s.trackingFull = false →
        traps (exec (.cpy d a g) s) s 0x0B 0x20 0) ∧
      (x % 64 ≠ 0 → traps (exec (.task d a g) s) s 0x0B 0x72 0) ∧
      (4096 ≤ x → traps (exec (.tdep d n g) s) s 0x0B 0x71 0) ∧
      (s.me.priv = false → traps (exec (.fampw d a g) s) s 0x01 0x0A 0))

/-- R290, R265, R242, R166 and R333: CEGEO sets one pair of geometry shadows. COLL and RSGO hand over a job with the record
or block that they name; what their footprint holds is the model's reading at issue (log entry 18). PREQ arrives at once
for a resident page and asks for an absent one. -/
def Obligations.GeometryAndRequests : Prop :=
  ∀ (a c : SReg) (i : Fin 4) (g : PReg) (s : State), s.bundled → s.pr g = true →
    (∃ t, exec (.cegeo a c i g) s = .next t ∧ slotHeld s t 8 1 ∧
      t = { s with me := { s.me with gShadow := t.me.gShadow }, cores := t.cores } ∧
      ∀ k : Fin 8, t.me.gShadow[k] =
        if k.val = 2 * i.val then s.rs a else if k.val = 2 * i.val + 1 then s.rs c else s.me.gShadow[k]) ∧
    (∀ done domain, completionWord s.myCluster (s.rs c) = some (done, domain) → (s.rs a).toNat % 64 = 0 →
      (s.activeColls < 16 → ∃ t, exec (.coll a c g) s = .next t ∧ t.mem = s.mem ∧ t.me = s.me ∧
        ∃ j ∈ t.jobs, j.id = s.nextId ∧ j.kind = .coll (s.rs a) none ∧ j.completion = done ∧ j.domain = domain) ∧
      (s.reshardsIn (towerOf s.cur) < 4 → ∃ t, exec (.rsgo a c g) s = .next t ∧ t.mem = s.mem ∧ t.me = s.me ∧
        ∃ j ∈ t.jobs, j.id = s.nextId ∧ j.kind = .reshard (s.rs a) 0 0 none ∧ j.completion = done ∧
          j.domain = domain)) ∧
    (16 ≤ s.activeColls → holds (exec (.coll a c g) s) s) ∧
    (4 ≤ s.reshardsIn (towerOf s.cur) → holds (exec (.rsgo a c g) s) s) ∧
    (∀ pa, barrierWord s.myCluster (s.rs c) = some pa →
      let x := s.translate s.me.ptroot (s.rs a) .read (!s.me.priv)
      (x.st = .ok → exec (.preq a c g) s =
        .next (((s.occupy 8 1).readLines (s.tableLines s.me.ptroot (s.rs a))).barrierArrive pa)) ∧
      (x.st = .absent → ∃ t, exec (.preq a c g) s = .next t ∧ t.mem = s.mem ∧ t.me = s.me ∧
        ∃ r, t.requests = s.requests ++ [r] ∧ r.va = s.rs a ∧ r.root = s.me.ptroot ∧ r.loc = none ∧
          ∃ j ∈ t.jobs, j.kind = .preq (s.rs a) ∧ j.completion = .barrier pa ∧ j.request = some r.id)) ∧
    (s.issue.trap = none → (s.rs a).toNat % 64 ≠ 0 →
      (s.activeColls < 16 → traps (exec (.coll a c g) s) s 0x0B 0x50 0) ∧
      (s.reshardsIn (towerOf s.cur) < 4 → traps (exec (.rsgo a c g) s) s 0x0B 0x42 0))

/-- R206, R207, R208, R287 and R288: BINIT, BEXP, BARV, BTEST and BWAIT on the barrier word; a phase completes when PEND and
REM are both 0, and an impossible count sets OVF. No byte outside the barrier changes. The contents of a barrier in a retired
bank are lost (R26). -/
def Obligations.Barriers : Prop :=
  ∀ (t n d : SReg) (q : Bool) (g : PReg) (s : State), s.bundled → s.pr g = true →
    (∀ pa, barrierWord s.myCluster (s.rs t) = some pa →
      (s.saved = [] ∨ (s.cluster (clusterOfPa pa)).passes = []) →
      let y := s.barrier pa
      let k := (s.rs n).toNat
      let p := y.pend + (s.rs n).toInt
      let after (i : Instr) (b : Barrier) : Prop :=
        ∃ u, exec i s = .next u ∧ (u.inRetired pa = false → u.barrier pa = b) ∧ memFrame s u pa 16 ∧ u.me.regs = s.me.regs ∧
          u.me.inflight = s.me.inflight ∧ u.issue = s.issue
      let test (b : Barrier) : Barrier :=
        if b.pend = 0 ∧ b.rem = 0 then { b with ph := !b.ph, rem := b.exp } else b
      (s.bankFault (bankOfPa pa) (pa % 2 ^ 22) 16 = none → k < 2 ^ 16 →
        after (.binit t n g) { pend := 0, exp := k, rem := k, lseq := 0, ph := false, ovf := false }) ∧
      (-(2 ^ 31) ≤ p → p < 2 ^ 31 → after (.bexp t n g) (test { y with pend := p })) ∧
      (p < -(2 ^ 31) ∨ 2 ^ 31 ≤ p → after (.bexp t n g) { y with ovf := true }) ∧
      (y.rem ≠ 0 → after (.barv t g) (test { y with rem := y.rem - 1 })) ∧
      (y.rem = 0 → after (.barv t g) { y with ovf := true }) ∧
      (∃ u, exec (.btest d t g) s = .next u ∧ slotHeld s u 8 1 ∧ lands s u 6 (.scalar d y.testWord false) ∧
        u.me.regs = s.me.regs ∧ u.mem = s.mem) ∧
      (s.issue.ended = [] → s.issue.woken = none →
        (y.ovf = false → y.ph ≠ q → passes (exec (.bwait t q g) s) s) ∧
        (s.faults = [] → s.early = [] → s.inRetired pa = false →
          (y.ovf = false → y.ph = q → s.issue.wait = none → waitsFor (exec (.bwait t q g) s) s (.barrier pa q)) ∧
          (y.ovf = true → s.issue.trap = none → traps (exec (.bwait t q g) s) s 0x07 1 0)))) ∧
    (barrierWord s.myCluster (s.rs t) = none → s.issue.trap = none →
      ∀ i ∈ ([.binit t n g, .bexp t n g, .barv t g, .btest d t g, .bwait t q g] : List Instr),
        traps (exec i s) s 0x0B 0x21 0)

/-- R285, R91, R92 and R349: BANKGIVE records a pass; SPAWN starts an idle context of the cluster with eight arguments;
SPAWN in join mode waits for the work of its target or goes on. That a spawned context starts in user mode is the model's
choice (log entry 49). -/
def Obligations.PassesAndSpawns : Prop :=
  ∀ (t m e : SReg) (c : Fin 16) (blk : Fin 8) (g : PReg) (s : State), s.bundled → s.pr g = true →
    let at_ := 16 * clusterOf s.cur + c.val
    let loc := 16 * clusterOf s.cur + (s.rs t).toNat % 16
    (∀ pa, barrierWord s.myCluster (s.rs t) = some pa → s.rs m &&& ~~~s.me.banks = 0 → s.rs m ≠ 0 → at_ ≠ s.cur →
      s.me.regions = [] → (s.cluster s.myCluster).passes.countP (fun p => p.issuer = s.me.work) < 4 →
      ∃ u, exec (.bankgive t m c g) s = .next u ∧ u.me = s.me ∧ u.mem = s.mem ∧
        (u.cluster s.myCluster).passes = (s.cluster s.myCluster).passes ++
          [{ issuer := s.me.work, banks := s.rs m
             target := if (s.ctx at_).status = .idle then none else some (s.ctx at_).work
             barrier := pa, phase := (s.barrier pa).ph }]) ∧
    (∀ pa, barrierWord s.myCluster (s.rs t) = some pa → s.rs m &&& ~~~s.me.banks ≠ 0 → s.issue.trap = none →
      traps (exec (.bankgive t m c g) s) s 0x03 0x01 0) ∧
    (loc ≠ s.cur → s.me.gidx.getLsbD 63 = false →
      ((s.ctx loc).status = .idle →
        ∃ u, exec (.spawn t e blk g) s = .next u ∧ u.me.regs = s.me.regs ∧ u.mem = s.mem ∧
          let y := u.ctx loc
          y.status = .ready ∧ y.priv = false ∧ y.pc = s.rs e &&& ~~~3#64 ∧ y.startAt = some (s.cycle + 8) ∧
          y.ptroot = s.me.ptroot ∧ y.wid = s.me.wid ∧ y.task = s.me.task ∧ y.banks = 0 ∧ y.gidx = 0 ∧
          (∀ k : Fin 8, y.regs.sget (Fin.ofNat 64 (k.val + 1)) = s.rs (Fin.ofNat 64 (8 * blk.val + k.val))) ∧
          ∀ k : SReg, 8 < k.val → y.regs.sget k = 0) ∧
      (s.issue.ended = [] →
        (s.joinedWork loc = none → passes (exec (.spawnJoin t g) s) s) ∧
        ∀ w, s.joinedWork loc = some w → s.issue.wait = none → waitsFor (exec (.spawnJoin t g) s) s (.join w))) ∧
    (s.issue.trap = none →
      (loc = s.cur → traps (exec (.spawn t e blk g) s) s 0x04 1 0 ∧ traps (exec (.spawnJoin t g) s) s 0x04 1 0) ∧
      ((s.ctx loc).status ≠ .idle → traps (exec (.spawn t e blk g) s) s 0x04 1 0))

/-- R93, R98, R100, R315 and R360: the last member to reach GANG forms the gang and the others wait under a hold; a member of
the formed gang goes on, and a GANG that is not in the first bundle of a matching launch traps; GEND ends a member and leaves
the lead alone; TSWAIT waits for a later step and counts one already reached. -/
def Obligations.GangsAndTime : Prop :=
  ∀ (n : SReg) (g : PReg) (s : State), s.bundled →
    let others := s.gangMembers.filter fun l => l ≠ s.cur
    let fits := s.me.fresh = true ∧ s.me.priv = false ∧ s.me.gidx.getLsbD 63 = true ∧ (s.rs n).toNat = bits s.me.gidx.toNat 14 8
    let all := others.length + 1 = (s.rs n).toNat ∧ ∀ l ∈ others, (s.ctx l).atGang = true
    (s.me.ganged = false → fits → all →
      ∃ t, exec (.gang n) s = .next t ∧ t.issue = s.issue ∧ t.me.ganged = true ∧ t.me.regs = s.me.regs ∧
        t.mem = s.mem ∧ ∀ l ∈ others, (t.ctx l).ganged = true) ∧
    (s.me.ganged = false → fits → ¬ all →
      ∃ t, exec (.gang n) s = .next t ∧ t.issue.hold = true ∧ t.me.atGang = true ∧ t.me.regs = s.me.regs) ∧
    (s.me.ganged = true → fits → ∃ t, exec (.gang n) s = .next t ∧ slotHeld s t 8 1 ∧ t = { s with cores := t.cores }) ∧
    (¬ fits → s.issue.trap = none → traps (exec (.gang n) s) s 0x0B 0x01 0) ∧
    (s.me.ganged = true → bits s.me.gidx.toNat 5 0 = 0 →
      ∃ t, exec .gend s = .next t ∧ slotHeld s t 8 1 ∧
        t = { s with me := { s.me with gidx := 0, ganged := false }, cores := t.cores }) ∧
    (s.me.ganged = true → bits s.me.gidx.toNat 5 0 ≠ 0 →
      ∃ t, exec .gend s = .next t ∧ t.issue = { s.issue with gend := true } ∧ t.me = s.me ∧ t.mem = s.mem) ∧
    (s.me.ganged = false → s.issue.trap = none → traps (exec .gend s) s 0x0B 0x01 0) ∧
    (s.pr g = true → s.issue.ended = [] →
      (s.rs n ≤ s.timeStep → ∃ t, exec (.tswait n g) s = .next t ∧ slotHeld s t 8 1 ∧
        t = { s with
          me := { s.me with
            tslate := if s.me.tslate = BitVec.allOnes 32 then s.me.tslate else s.me.tslate + 1 }
          cores := t.cores }) ∧
      (s.timeStep < s.rs n → s.issue.wait = none → waitsFor (exec (.tswait n g) s) s (.timeStep (s.rs n))))

/-- R303, R307, R308, R309, R301, R136, R137 and R381: FAPAR and FAFMT set the context's own copies, FACALL puts the checked
call into the array's running or queued place and traps where both are taken, FAWAIT waits while a routine of the work is
there, and FASTAT reads the status word as it stands at the first issue of its bundle. -/
def Obligations.FunctionArrayForms : Prop :=
  ∀ (a b d : SReg) (p : AReg) (sub : Bool) (fmt : FaFmt) (beats : Fin 512) (routine : Fin 256) (g : PReg) (s : State),
    s.bundled →
    let k := coreOf s.cur
    let u := s.fa k
    (s.pr g = true →
      (∃ t, exec (.fapar a b p g) s = .next t ∧ slotHeld s t 8 1 ∧
        t = { s with me := { s.me with aShadow := s.me.aShadow.set p (s.rs b ++ s.rs a) }, cores := t.cores }) ∧
      (∃ t, exec (.fafmt sub fmt g) s = .next t ∧ slotHeld s t 8 1 ∧
        t = { s with me := { s.me with faFmt := fmt, faSub := sub }, cores := t.cores }) ∧
      (let v := (s.issue.reads.lookup (s.slotOr 8)).getD (faStatus u s.me)
       ∃ t, exec (.fastat d g) s = .next t ∧ slotHeld s t 8 1 ∧ lands s t 6 (.scalar d v false) ∧
         t.issue = { s.issue with reads := s.issue.reads ++ [(s.slotOr 8, v)] } ∧
         t = { s with cores := t.cores, issue := t.issue, me := { s.me with inflight := t.me.inflight } }) ∧
      (u.busy s.me.work = false → idles (exec (.fawait g) s) s 8 1) ∧
      (u.busy s.me.work = true → s.issue.ended = [] → s.issue.wait = none → waitsFor (exec (.fawait g) s) s .fa)) ∧
    (∀ c, s.faCheck (s.faSnapshot beats.val routine.val fmt) = .accepted c →
      let call := exec (.facall beats routine fmt) s
      let enters (f : FaUnit → FaUnit) : Prop :=
        ∃ t, call = .next t ∧ t.mem = s.mem ∧ t.me = s.me ∧ (∀ i, t.fa i = if i = k then f u else s.fa i) ∧
          (s.faults = [] → s.early = [] → s.retired = [] → t = { s with cores := t.cores })
      (u.running = none → enters fun u => { u with running := some c, started := false }) ∧
      (u.running ≠ none → u.queued = none → enters fun u => { u with queued := some c }) ∧
      (u.running ≠ none → u.queued ≠ none → s.issue.trap = none → traps call s 0x0A 0x05 0)) ∧
    ∀ cause sb, s.faCheck (s.faSnapshot beats.val routine.val fmt) = .trap cause sb → s.issue.trap = none →
      traps (exec (.facall beats routine fmt) s) s cause sb 0

/-- R26, R189, R246, R265, R271 and R329: PCNT and RSPROG deliver the counter byte and the progress word, PWAIT goes on,
acquiring what its counter has published, or waits by the condition on the counter, and PCANCEL freezes an open tile
where its PLANES stand and leaves a finished one alone; a tile whose counters stand in a retired bank is not such a tile
(R26, log entry 14). Behind a COLL of the work that has not started, by whose record the counter is its own, PCNT reads
the counter that this one will start with, PWAIT waits for its tile and PCANCEL cancels it: the record as it stands
decides, where it passes its checks; where the page of its record or group table is absent PCNT delivers a free byte and
the others act as behind such a COLL (log entry 42). It is the model's reading too that PCNT and PWAIT trap with 0x51
where their counter lies at 3 MiB or above (51), that PWAIT at a counter of no active collective acquires what was
published there last (55), and that RSPROG reads memory in the step of its bundle (4). -/
def Obligations.PlaneForms : Prop :=
  ∀ (d t n : SReg) (k : Fin 64) (g : PReg) (s : State), s.bundled → s.pr g = true → s.cur < 1024 →
    let count := (s.rs n).toNat
    (∀ pa, s.counterWord (s.rs t) 1 = some pa →
      let counts (after : State) (v : Nat) : Prop :=
        (∃ u, exec (.pcnt d t g) s = .next u ∧ lands s u 6 (.scalar d (BitVec.ofNat 64 v) false) ∧
          u.me.regs = s.me.regs ∧ u.mem = s.mem) ∧
        (s.faults = [] → s.early = [] → s.inRetired pa = false →
          yields (exec (.pcnt d t g) s) after 8 1 6 (.scalar d (BitVec.ofNat 64 v) false))
      let goesOn : Prop := exec (.pwait t k g) s = .next ((s.occupy 8 1).acquire pa)
      (∀ i known, s.counterAhead s.me.work pa = some (i, known) →
        let cancelled := (i.id, pa) ∈ s.precancels
        (known = true → (cancelled → counts s 0xC0) ∧ (¬ cancelled → counts s 0)) ∧
        (known = false → ∃ v < 256, counts s.drawn v) ∧
        (s.issue.ended = [] →
          (k.val = 0 ∨ cancelled → goesOn) ∧
          (k.val ≠ 0 → ¬ cancelled → s.issue.wait = none → waitsFor (exec (.pwait t k g) s) s (.planes pa k.val))) ∧
        (count = 1 → ∃ u, exec (.pcancel t n g) s = .next u ∧ u.issue = s.issue ∧ u.me.regs = s.me.regs ∧
          u.mem = s.mem ∧ u.jobs = s.jobs ∧ ∀ p, p ∈ u.precancels ↔ p = (i.id, pa) ∨ p ∈ s.precancels)) ∧
      (s.counterAhead s.me.work pa = none → s.planeCounter pa = none →
        counts s (s.portBytes true pa 1) ∧
        (Memory.wf s.mem = true → s.early = [] → s.inRetired pa = false →
          s.portBytes true pa 1 = (readByte s.mem pa).toNat) ∧
        (s.issue.ended = [] → goesOn) ∧
        (count = 1 → passes (exec (.pcancel t n g) s) s)) ∧
      ∀ j c y, s.counterAhead s.me.work pa = none → s.planeCounter pa = some (j, c, y) →
        counts (s.noteTile pa true false) y.byte ∧
        (s.issue.ended = [] →
          (y.fin = true ∨ min k.val c.planeCount ≤ y.k →
            exec (.pwait t k g) s = .next ((s.occupy 8 1).acquireTile pa k.val)) ∧
          (y.fin = false → y.k < min k.val c.planeCount → s.issue.wait = none →
            waitsFor (exec (.pwait t k g) s) s (.planes pa k.val))) ∧
        (count = 1 → ∃ u, exec (.pcancel t n g) s = .next u ∧ u.issue = s.issue ∧ u.me.regs = s.me.regs ∧
          (y.fin = true → memSame s u) ∧
          (y.fin = false → s.countersLost c = false →
            memFrame s u pa 1 ∧ readByte u.mem pa = BitVec.ofNat 8 (128 + 64 + y.k)))) ∧
    (s.issue.trap = none →
      (s.counterWord (s.rs t) 1 = none →
        ∀ i ∈ ([.pcnt d t g, .pwait t k g] : List Instr), traps (exec i s) s 0x0B 0x51 0) ∧
      (count = 0 ∨ 65536 < count → traps (exec (.pcancel t n g) s) s 0x0B 0x51 0) ∧
      (0 < count → count ≤ 65536 → s.counterWord (s.rs t) count = none →
        traps (exec (.pcancel t n g) s) s 0x0B 0x51 0) ∧
      ((s.rs t).toNat % 64 ≠ 0 → traps (exec (.rsprog d t g) s) s 0x0B 0x42 0)) ∧
    ((s.rs t).toNat % 64 = 0 →
      let live := s.liveReshard s.me.ptroot (s.rs t) 0
      let c := s.chaseMe (s.rs t + 256) .read
      (∀ cursor status, live = some (cursor, status) →
        yields (exec (.rsprog d t g) s) s 8 1 6
          (.scalar d (BitVec.ofNat 64 (cursor % 2 ^ 48 * 2 ^ 16 + status * 2 ^ 8 + 1)) false)) ∧
      (live = none → c.x.st = .ok →
        let r := ((s.occupy 8 1).readLines c.tables).lineLoad (coreOf s.cur) (wmax s.me.pts c.seen) c.x.e c.x.pa s.retired
        loading (exec (.rsprog d t g) s) s
          [.scalar d (BitVec.ofNat 64 (r.data / 2 ^ 64 % 2 ^ 48 * 2 ^ 16 + r.data % 2 ^ 16)) false]) ∧
      (live = none → c.x.st = .format ∨ c.x.st = .absent ∨ c.x.st = .protect ∨ c.x.st = .chain →
        loading (exec (.rsprog d t g) s) s [.scalar d 0x1204#64 false]))

/-! Writes of the host, and rows of one register alone. -/

/-- R7, R25, R101, R112, R168, R181, R191, R192, R205, R218, R251 and R256: writes of queue control, of the pre-emption
request, of RETRAIN and of a record slot, also as writes of the register space; a doorbell that is not one aligned write
of 64 bytes is only counted, and a valid one sets the state of its slots, 0x87 where the queue is not enabled and 0x01
where the record is accepted; the rows that write or read and clear one register. -/
def Obligations.RegisterRows : Prop :=
  ∀ (q : Fin 64) (data : Word) (link : Fin 12) (n v slot : Nat) (aligned hi : Bool) (first count : Byte) (d : SReg)
    (s : State),
    (∃ t, exec (.queueControlWrite q data) s = .next t ∧ t = { s with queues := t.queues } ∧
      (t.queue q.val).en = (data.getLsbD 8 && s.mgmt.cxl) ∧ (t.queue q.val).level.val = data.toNat % 4 ∧
      (t.queue q.val).entries = (s.queue q.val).entries ∧ ∀ p, p ≠ q.val → t.queue p = s.queue p) ∧
    (n ≠ 64 ∨ aligned = false ∨ count = 0 ∨ 64 < count.toNat →
      exec (.htsDoorbellSubmit q n aligned first count) s = .next { s with counted := s.counted + 1 }) ∧
    ((s.queue q.val).en = false →
      ∃ t, exec (.htsDoorbellSubmit q 64 true first 1) s = .next t ∧ t = { s with slotStatus := t.slotStatus } ∧
        Table.get 0 t.slotStatus (64 * q.val + first.toNat % 64) = 0x87#64) ∧
    (∀ u ts foot, (s.setSlotStatus q.val (first.toNat % 64) 1#64).validate q.val
          (Table.get 0 s.slotRecords (64 * q.val + first.toNat % 64)).toNat 0 = (u, .ok ts foot) →
      ∃ t e, exec (.htsDoorbellSubmit q 64 true first 1) s = .next t ∧
        Table.get 0 t.slotStatus (64 * q.val + first.toNat % 64) = 1#64 ∧
        (t.queue q.val).entries = (u.queue q.val).entries ++ [e] ∧ e.slot = first.toNat % 64 ∧ e.targets = ts ∧
        e.record = Table.get 0 s.slotRecords (64 * q.val + first.toNat % 64)) ∧
    (∀ l, l = data.toNat % 1024 →
      (data.getLsbD 15 = false ∨ (s.ctx l).status = .idle → exec (.preemptRequestWrite data) s = .next s) ∧
      (data.getLsbD 15 = true → (s.ctx l).status ≠ .idle → (s.ctx l).gidx.getLsbD 63 = false →
        (s.ctx l).preempt = false → (s.ctx l).stopping = none →
        ∃ t, exec (.preemptRequestWrite data) s = .next t ∧ t.ctx l = { s.ctx l with preempt := true, atPoint := false } ∧
          (∀ m, m ≠ l → t.ctx m = s.ctx m) ∧ t.mem = s.mem)) ∧
    (data.getLsbD 63 = true → (s.link link).up = false →
      ∃ t, exec (.chotisRetrainWrite link data) s = .next t ∧ t.link link = { s.link link with training := true } ∧
        t.mem = s.mem ∧ t.me = s.me) ∧
    (data.getLsbD 63 = false ∨ (s.link link).up = true → exec (.chotisRetrainWrite link data) s = .next s) ∧
    exec (.registerWrite (0x402240 + 0x4000 * q.val) 8 v) s = exec (.queueControlWrite q (BitVec.ofNat 64 v)) s ∧
    exec (.registerWrite 0x500000 8 v) s = exec (.preemptRequestWrite (BitVec.ofNat 64 v)) s ∧
    exec (.registerWrite (0x510000 + 8 * link.val) 8 v) s = exec (.chotisRetrainWrite link (BitVec.ofNat 64 v)) s ∧
    (slot < 64 → ∃ t, exec (.registerWrite (0x400000 + 0x4000 * q.val + 128 * slot) 128 v) s = .next t ∧
      t = { s with slotRecords := t.slotRecords } ∧
      Table.get 0 t.slotRecords (64 * q.val + slot) = BitVec.ofNat 1024 v ∧
      ∀ k, k ≠ 64 * q.val + slot → Table.get 0 t.slotRecords k = Table.get 0 s.slotRecords k) ∧
    (∃ t, exec (.linkStatusRead link) s = .next t ∧ t.link link = { s.link link with retry := 0 } ∧
      t = { s with links := t.links } ∧ ∀ k, k ≠ link → t.link k = s.link k) ∧
    exec .stkerrClear s = .next { s with stkerr := 0 } ∧
    exec .ceerrClear s = .next { s with me := { s.me with ceerr := 0 } } ∧
    exec (.efrWrite data) s = .next { s with
      me := { s.me with efrPend := s.me.efrPend.filter (fun e => e.wait != 2) ++ [{ val := data &&& 0xFF0F#64, wait := 2 }] } } ∧
    (∃ t, exec (.tsctlWrite data) s = .next t ∧ t = { s with detReq := data.getLsbD 63, logTNext := t.logTNext } ∧
      t.logTNext.toNat = if 8 ≤ data.toNat % 32 ∧ data.toNat % 32 ≤ 16 then data.toNat % 32 else s.logTNext.toNat) ∧
    (∃ t, exec (.ownershipTableWrite hi data) s = .next t ∧ t = { s with aroTable := t.aroTable } ∧
      (∀ k : Fin 64, k.val ≠ s.arosel.toNat → t.aroTable[k] = s.aroTable[k]) ∧
      ∀ k : Fin 64, k.val = s.arosel.toNat → t.aroTable[k].extractLsb' 0 64 =
          (if hi then s.aroTable[k].extractLsb' 0 64 else data &&& 0x01FFFFFFFFE00000#64) ∧
        t.aroTable[k].extractLsb' 64 64 =
          (if hi then data &&& 0x800000000003FFFF#64 else s.aroTable[k].extractLsb' 64 64)) ∧
    (∃ t, exec (.tslateReadClear d) s = .next t ∧ lands s t 3 (.scalar d (s.me.tslate.setWidth 64) false) ∧
      t.me.tslate = 0 ∧ t = { s with me := { s.me with inflight := t.me.inflight, tslate := 0 } }) ∧
    (∃ t, exec (.dsdropReadClear d) s = .next t ∧ lands s t 3 (.scalar d (s.me.dsdrop.setWidth 64) false) ∧
      t.me.dsdrop = 0 ∧ t = { s with me := { s.me with inflight := t.me.inflight, dsdrop := 0 } })

/-! Events. -/

/-- R99, R100, R101, R19, R159, R176, R181 and R257: a step boundary, which ends the alignment where markers are missing, a
step marker, which stands for the boundary of its step, of now or earlier, the timestamp tick, the age limit of L1 copies and
the tick of the homes. One counter for all towers and the tick at the clock of tower 0 are the model's choice (log entry 6),
and so is what a module knows of the modules beyond its partners, and with it the link toward the root (21). -/
def Obligations.ClockEvents : Prop :=
  ∀ (link : Fin 12) (n : Word) (logT : BitVec 5) (ok : Bool) (s : State),
    (s.nextStep ≤ s.cycle →
      ∃ t, exec .timeStepBoundary s = .next t ∧ t.timeStep = s.timeStep + 1 ∧ t.logT = s.logTNext ∧
        t.nextStep = s.cycle + 2 ^ s.logTNext.toNat ∧ t.lastStep = s.cycle ∧ t.mem = s.mem ∧ t.me.regs = s.me.regs ∧
        (∀ pa, (t.line pa).wid = 0) ∧
        (s.mgmt.forcedExit = false → t.detAct = s.detReq) ∧
        (s.mgmt.forcedExit = true → t.detAct = false ∧ t.detReq = false) ∧
        ((s.me.status = .waiting (.timeStep n) ∧ n ≤ s.timeStep + 1 ∧ s.me.woken = none) →
          t.me.woken = some .completes) ∧
        (s.root = false → s.aligned = true → s.rootLink = none →
          (s.markerLast.toNat + 3 ≤ (s.timeStep + 1).toNat → t.aligned = false ∧ t.alignLost = true ∧
            t.mgmt.logSeq = (if s.mgmt.forcedExit then s.mgmt.logSeq + 2 else s.mgmt.logSeq + 1)) ∧
          ((s.timeStep + 1).toNat < s.markerLast.toNat + 3 → t.aligned = true))) ∧
    (s.cycle < s.nextStep → exec .timeStepBoundary s = .next s) ∧
    (ok = false ∨ s.root = true ∨ s.rootLink ≠ some link →
      exec (.stepMarkerReceive link ⟨n, logT⟩ ok) s = .next s) ∧
    (s.root = false → s.rootLink = some link →
      let at_ := s.cycle - s.nsCycles (s.link link).latency
      let ago := (s.timeStep - n).toNat * 2 ^ s.logT.toNat
      let near := (ago ≤ s.lastStep ∧ s.lastStep ≤ at_ + ago + 1 ∧ at_ + ago ≤ s.lastStep + 1) ∨
        (s.lastStep < ago ∧ n = s.timeStep + 1 ∧ s.nextStep ≤ at_ + 1 ∧ at_ ≤ s.nextStep + 1)
      let marked (p : State → Prop) : Prop :=
        ∃ t, exec (.stepMarkerReceive link ⟨n, logT⟩ true) s = .next t ∧ t.mem = s.mem ∧ t.me.regs = s.me.regs ∧ p t
      let adopts (since : Nat) (t : State) : Prop :=
        let k := if n = s.timeStep + 1 then 0 else since
        t.timeStep = n + BitVec.ofNat 64 k ∧ t.lastStep = at_ + k * 2 ^ s.logT.toNat ∧
          t.nextStep = t.lastStep + 2 ^ t.logT.toNat
      let steps (p : Nat → Prop) : Prop :=
        (near → p (s.timeStep - n).toNat) ∧ (¬ near → p ((s.cycle - at_) / 2 ^ s.logT.toNat))
      (s.aligned = true → logT ≠ s.logT ∨ ¬ near →
        marked fun t => t.aligned = false ∧ t.alignLost = true ∧ t.timeStep = s.timeStep ∧ t.detAct = s.detAct) ∧
      (s.aligned = false → logT ≠ s.logT → exec (.stepMarkerReceive link ⟨n, logT⟩ true) s = .next s) ∧
      (s.aligned = true → logT = s.logT → near → marked fun t => t.aligned = true ∧ adopts (s.timeStep - n).toNat t) ∧
      (s.aligned = false → logT = s.logT → steps fun since => marked fun t => adopts since t ∧ t.markerLast = n ∧
        (s.alignLost = false → t.aligned = true) ∧
        (s.alignLost = true → (t.aligned = true ↔
          near ∧ 16 ≤ (if n = s.markerLast + 1 then s.markersGood + 1 else 1))))) ∧
    (s.ptsTicks < s.cycle / 256 → ∃ t, exec .ptsTick s = .next t ∧ t.ptsTicks = s.ptsTicks + 1 ∧ t.mem = s.mem ∧
      t.me = if s.me.status = .running then { s.me with pts := s.me.pts + 1 } else s.me) ∧
    (∃ t, exec .l1CopyAgeExpiry s = .next t ∧ t = { s with l1 := t.l1 } ∧
      ∀ k, k ∈ t.l1 ↔ k ∈ s.l1 ∧ (k.excl = true ∨ s.cycle < k.filled + 16384)) ∧
    (s.nextTick ≤ s.cycle → exec .homeTick s = .next { s with
      homeTick := s.homeTick + 1, nextTick := s.nextTick + s.mgmt.clocks[0] })

/-- R184, R187, R204, R205 and R296: a copy starts when no edge and no earlier command holds it; it writes the bytes of the
next portion, seen here between two banks with no line in error and from a remote source with its poison (R172, R204), and no
others; at its end, or where its remote end or the
way to it fails, its counter falls by one. A portion of another module's copy is written here in the order of this module. -/
def Obligations.CopyEvents : Prop :=
  ∀ (id : Nat) (j : Job) (dst src : Word) (g : Vector Word 8) (s : State), s.job id = some j →
    j.kind = .copy dst src g →
    (s.copyMayStart j = true → ∃ t, exec (.copyStart id) s = .next t ∧ t.job id = some { j with started := true } ∧
      t = { s with jobs := t.jobs }) ∧
    (s.copyMayStart j = false → exec (.copyStart id) s = .next s) ∧
    (∀ (b o b' o' i r off n h : Nat), copyEnd dst = some (.scratch b o) → copyEnd src = some (.scratch b' o') → b ≠ b' →
      j.started = true → j.failed = false → j.request = none → j.refused = false → j.src = [] →
      j.completion = .counter h → s.faults = [] → Memory.wf s.mem = true →
      s.retired.contains (64 * clusterOf j.loc + b) = false → s.retired.contains (64 * clusterOf j.loc + b') = false →
      nextPortion j.done (copyPortions (.scratch b o) g) = some (i, r, off, n) → n ≤ 64 → 0 < n → s.early = [] →
      let there := scratchPa (clusterOf j.loc) b (o + r * g[2].toNat + off)
      let here := scratchPa (clusterOf j.loc) b' (o' + r * g[1].toNat + off)
      ∃ t, exec (.copyLineWrite (.own id) ⟨0, false⟩) s = .next t ∧ loadBytes t.mem there n = loadBytes s.mem here n ∧
        memFrame s t there n ∧ ∃ k, t.job id = some k ∧ k.pos = j.pos + n ∧ k.done = j.done ++ [i]) ∧
    (∀ (b o i r off n h : Nat) (x : Nat) (data : Delivered), copyEnd dst = some (.scratch b o) → copyEnd src = some (.virt x) →
      s.remoteVa src = true → j.started = true → j.failed = false → j.request = none → j.refused = false →
      j.completion = .counter h → s.faults = [] → Memory.wf s.mem = true →
      s.retired.contains (64 * clusterOf j.loc + b) = false →
      nextPortion j.done (copyPortions (.scratch b o) g) = some (i, r, off, n) → n ≤ 64 → 0 < n → s.early = [] →
      let there := scratchPa (clusterOf j.loc) b (o + r * g[2].toNat + off)
      ∃ t, exec (.copyLineWrite (.own id) data) s = .next t ∧ loadBytes t.mem there n = data.data % 2 ^ (8 * n) ∧
        (data.poison = true → (t.line there).poison = true) ∧ memFrame s t there n ∧
        ∃ k, t.job id = some k ∧ k.pos = j.pos + n ∧ k.done = j.done ++ [i]) ∧
    (∀ fail, j.started = true → j.failed = true ∨ copyBytes g ≤ j.pos →
      ∃ t, exec (.copyComplete id fail) s = .next t ∧ t.job id = none ∧ t.mem = s.mem ∧ t.me = s.me ∧
        (∀ pa, j.completion = .barrier pa → t.depCounters = s.depCounters) ∧
        ∀ h, j.completion = .counter h → Table.get 0 t.depCounters h = Table.get 0 s.depCounters h - 1) ∧
    (∀ h l, j.failed = false → j.pos < copyBytes g → copyEnd dst ≠ none → j.completion = .counter h →
      s.placeOf j.work = some l → (s.ctx l).ceerr.getLsbD 63 = false →
      ∀ f ∈ ([(.retired, 1), (.pageRefused, 2), (.protection, 3), (.linkLost, 4), (.chain, 7)] : List (CopyFailure × Nat)),
        ∃ t, exec (.copyComplete id (some f.1)) s = .next t ∧ t.job id = none ∧
          (t.ctx l).ceerr = BitVec.ofNat 64 (2 ^ 63 + f.2 * 2 ^ 40 + j.seq.toNat) ∧
          Table.get 0 t.depCounters h = Table.get 0 s.depCounters h - 1) ∧
    (∀ (w : ForeignWrite) (data : Delivered),
      let c := chase s w.root w.va .write w.user
      let n := min w.bytes (64 - w.va.toNat % 64)
      c.x.st = .ok → s.inRetired c.x.pa = false → s.detDrops w.wid c.x.e c.x.pa = false → Memory.wf s.mem = true →
      ∃ t, exec (.copyLineWrite (.foreignWrite w) data) s = .next t ∧ t.me = s.me ∧ memFrame s t c.x.pa n ∧
        loadBytes t.mem c.x.pa n = data.data % 2 ^ (8 * n) ∧ (w.poison = true → (t.line c.x.pa).poison = true) ∧
        (t.line c.x.pa).wts = wmax (wmax w.pts c.seen) ((s.line c.x.pa).rts + 1)) ∧
    ∀ root user va pts data, ∃ t, exec (.copyLineWrite (.foreignRead root user va pts) data) s = .next t ∧ t.mem = s.mem ∧
      t.me = s.me

/-- R155, R190, R205, R230, R233, R234, R236, R346 and R348: a line moves as it stands, in the order after every access that
reached it, and leaves a mark that names both ends and the generation; a sweep makes a marked line zero and leaves any other
alone, and ends at a line of a retired bank (R26); SMAP enters its region and changes no byte outside it, or ends with the
status of what it fails, which CEERR then holds with the sequence number of the command where no earlier failure stands
there; a fill copies one line into the bank. -/
def Obligations.RelocAndMapEvents : Prop :=
  ∀ (id : Nat) (j : Job) (s : State),
    (∀ dst src len gen h xs xd, s.actingJob id = some j → j.kind = .reloc dst src len gen → j.refused = false →
      j.completion = .counter h → s.jobTranslate j (src + BitVec.ofNat 64 j.pos) = .inl xs →
      s.jobTranslate j (dst + BitVec.ofNat 64 j.pos) = .inl xd → movable xs = true → movable xd = true →
      (s.line xd.pa).mark = false → xs.pa / 64 ≠ xd.pa / 64 →
      ∃ t, exec (.relocLineMove id) s = .next t ∧
        loadBytes t.mem (xd.pa / 64 * 64) 64 = loadBytes s.mem (xs.pa / 64 * 64) 64 % 2 ^ 512 ∧
        loadBytes t.mem (xs.pa / 64 * 64) 64 = (dst.toNat + src.toNat * 2 ^ 64 + gen * 2 ^ 128) % 2 ^ 512 ∧
        (t.line xs.pa).mark = true ∧ (t.line xd.pa).mark = (s.line xs.pa).mark ∧
        (t.line xd.pa).wts = wmax (wmax j.pts ((s.line xs.pa).rts + 1)) ((s.line xd.pa).rts + 1) ∧
        (∀ a, (a < xs.pa / 64 * 64 ∨ xs.pa / 64 * 64 + 64 ≤ a) → (a < xd.pa / 64 * 64 ∨ xd.pa / 64 * 64 + 64 ≤ a) →
          readByte t.mem a = readByte s.mem a) ∧
        (j.pos + 64 < len → (t.job id).map (·.pos) = some (j.pos + 64)) ∧ (len ≤ j.pos + 64 → t.job id = none)) ∧
    (∀ base len h x, s.actingJob id = some j → j.kind = .msweep base len → j.refused = false →
      j.completion = .counter h → s.jobTranslate j (base + BitVec.ofNat 64 j.pos) = .inl x →
      (s.faults = [] → s.inRetired x.pa = true → ∃ t, exec (.msweepLine id) s = .next t ∧ t.job id = none) ∧
      (s.faults = [] ∨ s.tableLines j.root (base + BitVec.ofNat 64 j.pos) = [] → s.inRetired x.pa = false →
      ∃ t, exec (.msweepLine id) s = .next t ∧
        ((s.line x.pa).mark = true →
          loadBytes t.mem (x.pa / 64 * 64) 64 = 0 ∧ (t.line x.pa).mark = false ∧ memFrame s t (x.pa / 64 * 64) 64) ∧
        ((s.line x.pa).mark = false → t.mem = s.mem ∧ (s.faults = [] → t.lines = s.lines)) ∧
        (j.pos + 64 < len → (t.job id).map (·.pos) = some (j.pos + 64)) ∧ (len ≤ j.pos + 64 → t.job id = none))) ∧
    (∀ va start len l, s.job id = some j → j.kind = .smap va start len → j.started = false → s.jobHeld j = false →
      s.mapFirst j = true → s.placeOf j.work = some l → j.completion = .none →
      let rs := (s.ctx l).regions
      let fits := va.toNat % 64 = 0 ∧ start % 64 = 0 ∧ len % 64 = 0 ∧ rs.length < 16 ∧
        ∀ r ∈ rs, r.meets start len va = false
      (fits → ∃ t, exec (.mapUnitAccept id) s = .next t ∧ t.job id = some { j with started := true } ∧
        (∀ a, (∀ p, start ≤ p → p < start + len → a ≠ scratchPa (clusterOf j.loc) (p / 0x300000) (p % 0x300000)) →
          readByte t.mem a = readByte s.mem a) ∧
        (t.ctx l).regions = rs ++ [{ base := va, start := start, len := len, dirty := [], stale := false }]) ∧
      (¬ fits → ∃ t, exec (.mapUnitAccept id) s = .next t ∧ t.job id = none ∧ t.mem = s.mem ∧
        (t.ctx l).regions = rs ∧
        (t.ctx l).ceerr = if (s.ctx l).ceerr.getLsbD 63 then (s.ctx l).ceerr else
          let status := if va.toNat % 64 ≠ 0 ∨ start % 64 ≠ 0 ∨ len % 64 ≠ 0 then 0x0A
            else if 16 ≤ rs.length then 0x08 else 0x09
          BitVec.ofNat 64 (2 ^ 63 + status * 2 ^ 40 + j.seq.toNat))) ∧
    (∀ va start len c, s.job id = some j → j.kind = .smap va start len → j.started = true → j.request = none →
      j.refused = false → j.pos < len →
      s.retired.contains (64 * clusterOf j.loc + (start + j.pos) / 0x300000) = false → s.early = [] →
      s.jobChase j.root j.user (va + BitVec.ofNat 64 j.pos) .read = .inl c → (cacheable c.x.pa = true ∨ s.faults = []) →
      let p := start + j.pos
      let pa := scratchPa (clusterOf j.loc) (p / 0x300000) (p % 0x300000)
      ∃ t, exec (.mapUnitLineTransfer id) s = .next t ∧
        loadBytes t.mem pa 64 = loadBytes s.mem (64 * (c.x.pa / 64)) 64 % 2 ^ 512 ∧ memFrame s t pa 64 ∧
        (t.job id).map (·.pos) = some (j.pos + 64))

/-- R80, R91, R193, R195, R197, R198, R221, R354 and R356: a dispatch starts the task's instance at its target with the
record's entry, arguments, banks and address space; a head or a Saved instance ages by one level; a TASK job stores its
record in its slot, and waits for an absent page (R167, log entry 56); TDEP lowers a counter within range; a resume
gives a Saved instance back its place, where it is the model's choice that bits 1 and 0 of the saved pc are cleared (log
entry 83). -/
def Obligations.TaskEvents : Prop :=
  ∀ (q id : Nat) (s : State),
    (∀ e t x, s.decision = .start q → s.dispatchable q = some (e, t) → e.targets = [x] → q < 64 → e.slot < 64 →
      ∃ u, exec .taskDispatch s = .next u ∧ u.mem = s.mem ∧ u.slotState q e.slot = 2 ∧
        (u.queue q).entries = (s.queue q).entries.tail ∧
        let r := e.record.toNat
        let y := u.ctx x.1
        (y.status = .ready ∨ y.status = .running) ∧ y.pc = BitVec.ofNat 64 (bits r 511 448 / 4 * 4) ∧ y.priv = false ∧
        y.banks = x.2.1 ∧ y.wid = x.2.2 ∧ y.ptroot = BitVec.ofNat 64 (bits r 307 268 * 4096) ∧ y.task = t.id ∧
        (∀ k : Fin 8, y.regs.sget (Fin.ofNat 64 (k.val + 1)) =
          BitVec.ofNat 64 (bits r (64 * k.val + 575) (64 * k.val + 512))) ∧
        ∀ k : SReg, 8 < k.val → y.regs.sget k = 0) ∧
    (∀ e rest, (s.queue q).entries = e :: rest → s.headAges q = true →
      ∃ u, exec (.effectiveLevelAging false q) s = .next u ∧ u = { s with queues := u.queues } ∧
        (u.queue q).entries = { e with aged := e.aged + 1 } :: rest) ∧
    (∀ v, s.saved = [v] → s.savedAges v = true →
      exec (.effectiveLevelAging true v.work) s = .next { s with saved := [{ v with aged := v.aged + 1 }] }) ∧
    (∀ j record slot va, s.job id = some j → j.kind = .task record q slot → j.request = none → j.refused = false →
      (∀ k ∈ s.jobs, k.id < id → k.work ≠ j.work) → ∀ u, s.jobRead j record 128 = .inr (u, .absent va) →
      ∃ w r, exec (.taskRecordSubmit id) s = .next w ∧ w.mem = s.mem ∧ w.job id = some { j with request := some r } ∧
        w.faultRecords = u.faultRecords ∧ w.slotRecords = s.slotRecords ∧
        ∃ p ∈ w.requests, p.id = r ∧ p.va = va ∧ p.root = j.root ∧ p.job = some j.id) ∧
    (∀ j record slot u pts v po, s.job id = some j → j.kind = .task record q slot → j.request = none → j.refused = false →
      (∀ k ∈ s.jobs, k.id < id → k.work ≠ j.work) → s.jobRead j record 128 = .inl (u, pts, v, po) →
      u.slotState q slot ≠ 1 → u.slotState q slot ≠ 2 →
      ∃ w, exec (.taskRecordSubmit id) s = .next w ∧ w.job id = none ∧
        Table.get 0 w.slotRecords (64 * q + slot) =
          BitVec.ofNat 1024 (if j.user then v - bits v 319 256 * 2 ^ 256 + j.root.toNat * 2 ^ 256 else v)) ∧
    (∀ j h n, s.job id = some j → j.kind = .tdep h n →
      ∃ u, exec (.tdepDecrement id) s = .next u ∧ u.job id = none ∧ u.mem = s.mem ∧ u.me = s.me ∧
        Table.get 0 u.depCounters h = if Table.get 0 s.depCounters h - n < -(2 ^ 31) then Table.get 0 s.depCounters h
          else Table.get 0 s.depCounters h - n) ∧
    (∀ v l, s.decision = .resume v → v.gidx.getLsbD 63 = false → s.resumable v = some [(v, l)] →
      loadBytes s.mem v.area 2 = 0x0300 →
      ∃ u, exec (.savedInstanceResume v.work) s = .next u ∧ (u.ctx l).work = v.work ∧ (u.ctx l).task = v.task ∧
        ((u.ctx l).status = .ready ∨ (u.ctx l).status = .running) ∧
        (u.ctx l).pc = BitVec.ofNat 64 (loadBytes s.mem (v.area + 0x18) 8) &&& ~~~3#64 ∧
        (∀ r : SReg, r ≠ 0 → (u.ctx l).regs.sget r = BitVec.ofNat 64 (loadBytes s.mem (v.area + 0x100 + 8 * r.val) 8)) ∧
        ∀ w ∈ u.saved, w.work ≠ v.work)

/-- R71, R73, R91, R148, R204, R205, R218 to R220, R222, R228 and R381: a context whose wait has ended is Ready or
Running again; a spawned one becomes Ready; an M0 access that is due writes its registers, and with it every result and
access due no later, in the order of cycle and slot; a pre-emption without jobs saves its context at once, and a quiesce
window that is over completes the last copy, where it has written every byte, so that its counter falls by one, or else
withdraws it, its ends, geometry and sequence number standing at its place in the reissue list of the area, and saves; a
withdrawn call goes back to the array. -/
def Obligations.ContextEvents : Prop :=
  ∀ (l : Fin 1024) (n i : Nat) (s : State),
    let c := s.ctx l.val
    let k := coreOf l.val
    let saves (o : Host.Outcome State Fault Refusal) (i : Nat) : Prop :=
      ∃ u v, o = .next u ∧ u.ctx l.val = Ctx.reset ∧ u.jobs = [] ∧ u.saved = s.saved ++ [v] ∧ v.work = c.work ∧
        v.task = c.task ∧ v.loc = l.val ∧ v.banks = c.banks ∧ v.area = areaPa (s.cluster (clusterOf l.val)) i
    (∀ w r, c.status = .waiting w → c.woken = some r → c.stopping = none →
      ∃ u, exec (.engineWaitEnd l) s = .next u ∧ ((u.ctx l.val).status = .ready ∨ (u.ctx l.val).status = .running) ∧
        (u.ctx l.val).regs = c.regs ∧ (u.ctx l.val).pc = c.pc ∧ u.mem = s.mem) ∧
    (∀ t, c.startAt = some t → t ≤ s.cycle → c.status = .ready → (s.core k).current ≠ some (Fin.ofNat 4 l.val) →
      ∃ u, exec (.spawnedContextReady l) s = .next u ∧ (u.ctx l.val).startAt = none ∧
        (u.ctx l.val).regs = c.regs ∧ u.mem = s.mem) ∧
    (∀ o, s.me.m0[n]? = some o → o.due ≤ s.cycle → o.written = false → (s.me.m0.filter fun p => p = o) = [o] →
      let others : Prop := ∀ p ∈ s.me.m0, p ≠ o → o.due < p.due ∨ (p.written = true ∧ p.ecc = true)
      ((∀ f ∈ s.me.inflight, s.cycle < f.due) → others →
        ∃ u, exec (.m0LoadReturn n) s = .next u ∧ u = { s with me := { s.me with regs := u.me.regs, m0 := u.me.m0 } } ∧
          u.me.regs = o.writes.foldl (fun r w => w.apply r) s.me.regs ∧
          (o.ecc = false → ∀ p, p ∈ u.me.m0 ↔ p ∈ s.me.m0 ∧ p ≠ o)) ∧
      (∀ f w, s.me.inflight = [f] → o.writes = [w] → others →
        ∃ u, exec (.m0LoadReturn n) s = .next u ∧ u.mem = s.mem ∧
          (o.due < f.due → u.me.inflight = [f] ∧ u.me.regs = w.apply s.me.regs) ∧
          (f.due ≤ o.due → u.me.inflight = [] ∧
            u.me.regs = if f.due < o.due ∨ f.slot ≤ 6 then w.apply (f.w.apply s.me.regs)
              else f.w.apply (w.apply s.me.regs))) ∧
      ∀ p v w, s.me.m0 = [o, p] ∨ s.me.m0 = [p, o] → p.due < o.due → p.written = false → s.me.inflight = [] →
        o.writes = [w] → p.writes = [v] →
        ∃ u, exec (.m0LoadReturn n) s = .next u ∧ u.mem = s.mem ∧ u.me.inflight = [] ∧
          u.me.regs = w.apply (v.apply s.me.regs)) ∧
    (c.stopping = none → s.preemptible l.val = true → c.gidx.getLsbD 63 = false →
      (s.cluster (clusterOf l.val)).freeArea = some i → s.jobs = [] → (s.fa k).running = none →
      s.noPa (areaPa (s.cluster (clusterOf l.val)) i) = false → saves (exec (.preemption l) s) i) ∧
    (∀ j dst src g d h, c.stopping = some i → s.jobs = [j] → j.work = c.work → j.kind = .copy dst src g →
      j.quiesce = some d → d ≤ s.cycle → j.completion = .counter h → (s.fa k).running = none →
      s.noPa (areaPa (s.cluster (clusterOf l.val)) i) = false →
      let e := areaPa (s.cluster (clusterOf l.val)) i + 0x8100 + 64 * c.withdrawn.countP fun x => decide (x.order < j.id)
      saves (exec (.copyQuiesceWindowExpiry l) s) i ∧
      ∃ u, exec (.copyQuiesceWindowExpiry l) s = .next u ∧
        (j.copyEnded g = true → Table.get 0 u.depCounters h = Table.get 0 s.depCounters h - 1) ∧
        (j.copyEnded g = false → Table.get 0 u.depCounters h = Table.get 0 s.depCounters h ∧
          (c.withdrawn.length < 64 → c.latched.length ≤ 64 →
            loadBytes u.mem e 8 = dst.toNat ∧ loadBytes u.mem (e + 8) 8 = src.toNat ∧
            (∀ m : Fin 5, loadBytes u.mem (e + 0x10 + 8 * m.val) 8 = g[m].toNat) ∧
            loadBytes u.mem (e + 0x38) 8 = j.seq.toNat))) ∧
    (∀ f f', c.faCall = some f → c.status = .running → (s.fa k).full = false →
      (s.actAs l.val).faCheck f = .accepted f' →
      ∃ u, exec (.faCallReissue l) s = .next u ∧ (u.ctx l.val).faCall = none ∧ u.mem = s.mem ∧
        ((s.fa k).running = none → (u.fa k).running = some f') ∧
        ((s.fa k).running ≠ none → (u.fa k).queued = some f'))

/-- R137, R141, R147, R148, R263 and R305: a routine starts, or fails at once, its status and index in FASTAT, as a call that
was issued again and failed a check does, or one that was cut off from its state (log entry 89); a lead streams when its
cores are ready; a routine that is done gives its place to the queued one; a verified microprogram is installed, a rejected
one is not, and is logged. -/
def Obligations.ArrayEvents : Prop :=
  ∀ (k : Fin 256) (c : FaCall) (s : State),
    let u := s.fa k.val
    let fails (status : Nat) : Prop :=
      ∃ t, exec (.faRoutineStart k) s = .next t ∧ t.mem = s.mem ∧
        t.fa k.val = { u with running := u.queued, started := false, queued := none } ∧
        ∀ l, s.placeOf c.work = some l → (t.ctx l).fastat.toNat % 256 = status ∧
          (t.ctx l).fastat.toNat / 256 % 256 = c.routine % 256
    (u.running = some c → u.started = false →
      (c.dead = none → u.cutOff c = true → fails 1) ∧
      (c.dead = none → u.cutOff c = false → c.routine < 16 →
        (u.startStatus c = 0 → ∃ t, exec (.faRoutineStart k) s = .next t ∧ t.mem = s.mem ∧
          t.fa k.val = { u with started := true, firstBeat := s.cycle }) ∧
        (u.startStatus c ≠ 0 → fails (u.startStatus c))) ∧
      ∀ n, c.dead = some n → fails n.toNat) ∧
    (u.running = some c → u.started = true → c.leads k.val = true → s.castReady k.val c = true →
      ∃ t, exec (.faMulticastStart k) s = .next t ∧ t = { s with cores := t.cores } ∧
        t.fa k.val = { u with running := some { c with streaming := true } }) ∧
    (u.running = some c → u.started = true → c.total ≤ c.vec → u.firstBeat + c.beats ≤ s.cycle →
      ∃ t, exec (.faRoutineComplete k) s = .next t ∧ t.mem = s.mem ∧
        t.fa k.val = { u with running := u.queued, started := false, queued := none } ∧
        ∀ l, s.placeOf c.work = some l → (t.ctx l).fastat.toNat % 256 = 0 ∧
          (t.ctx l).fastat.toNat / 256 % 256 = c.routine % 256) ∧
    ∀ id j image sig sig' v h p1 p2 q1 q2 s1 s2, s.job id = some j → j.kind = .fampw image → j.request = none →
      s.jobHeld j = false → (∀ i ∈ s.jobs, i.id < id → ∀ x, i.kind ≠ .fampw x) →
      s.jobRead j image 64 = .inl (s1, p1, h, q1) → 4096 ≤ bits h 31 0 → bits h 31 0 ≤ 2 ^ 20 →
      bits h 31 0 % 64 = 0 → 16 ≤ bits h 39 32 → s1.jobRead j image (bits h 31 0) = .inl (s2, p2, v, q2) →
      ∃ t, exec (.microprogramVerify id sig sig') s = .next t ∧ t.job id = none ∧
        (sig = true → sig' = true → s2.mgmt.rollback ≤ bits h 63 48 → Table.get 0 t.images (bits h 39 32) = v) ∧
        (sig = false ∨ sig' = false ∨ bits h 63 48 < s2.mgmt.rollback → t.images = s2.images ∧
          (j.completion = .none → t.mgmt.logSeq = s2.mgmt.logSeq + 1))

/-- R241, R243 to R245, R266 to R274, R294 and R384: a collective starts, with zero counters and its own contributions,
or ends with the status of its record, and waits where its record shows that an earlier job or task holds it; headers,
planes and whole values enter their tile, which is written and counted, no other byte with it, as soon as more of it is
ready; a packet that fails its CRC freezes the tile; a digest that differs ends the collective; a finished one reports,
and one that is told of its delivery before it has finished, or before OUT's page is there, keeps that (79). A reshard job
that an earlier one holds waits, also where its checks find it held; one that is not held starts or ends with the status
of its block, writes one block and its progress, ends, and stops where it is told to. The digest's function is free (log
entry 17); footprints are read at issue, and again at the start (18); a second job for a live record writes STATUS 0x0B
into it (52); a step writes one block, and the plan is read once (54); the tiles of a COLL whose work has ended are left
out, and a tile is undefined that a store has reached against R274 (79, seen here where none has); a PCANCEL behind a
COLL that has not started freezes its tile at the start (42; where the checks end the COLL, seen where none has come); a
tile is written whole or not at all (80); a collective whose counters lie in a retired bank ends with RESULT 0x0B (14). -/
def Obligations.CollectiveEvents : Prop :=
  ∀ (id : Nat) (j : Job) (record : Word) (s : State), s.job id = some j → j.request = none →
    (∀ u k r, j.kind = .coll record none → s.jobHeld j = false →
      State.readOnce false 2 s j record 64 = (u, k, none) → k.kept record.toNat 64 = some r →
      let n := bits r 59 48 + 1
      let table := bits r 383 320
      let k1 : Job := { k with foot := collFoot j r }
      let ends (t : State) (i : Job) (m : Nat) : Prop :=
        ∀ w, j.completion = .none → (∀ p ∈ s.precancels, p.1 ≠ id) →
          State.jobWrite i false 2 t i.pts (record + 48) 8 (m * 2 ^ 32) = .inl w →
          ∃ v, exec (.collJobStart id) s = .next v ∧ v.job id = none ∧ v.mem = w.1.mem
      (∀ m, u.collCheck k1 r = some m → ends u k1 m) ∧
      (u.collCheck k1 r = none → u.jobHeld k1 = true → exec (.collJobStart id) s = .next (u.putJob k1)) ∧
      ∀ u2 k2 g, u.collCheck k1 r = none → u.jobHeld k1 = false →
        State.readOnce false (n / 32 + 2) u k1 (BitVec.ofNat 64 table) (2 * n) = (u2, k2, none) →
        k2.kept table (2 * n) = some g →
        let c := collOf u2 k2 r (groupOf n g)
        (∀ m, u2.groupCheck r (groupOf n g) = some m → ends u2 k2 m) ∧
        (u2.groupCheck r (groupOf n g) = none → j.ended = none → j.loc < 1024 → u2.countersLost c = false →
          c.contributes = false → ∃ t y x, exec (.collJobStart id) s = .next t ∧ t.job id = some y ∧
            y.kind = .coll record (some x) ∧ ∀ i v, x.tiles[i]? = some v →
              v.k = 0 ∧ (v.fin = true ↔ (id, c.cnt + i) ∈ s.precancels) ∧ v.can = v.fin) ∧
        (u2.groupCheck r (groupOf n g) = none → j.ended = none → j.loc < 1024 → (∀ p ∈ s.precancels, p.1 ≠ id) →
          let runs (p : Coll → Prop) : Prop :=
            ∃ t y x, exec (.collJobStart id) s = .next t ∧ t.job id = some y ∧ y.kind = .coll record (some x) ∧
              x.read = true ∧ x.cid = bits r 47 32 ∧ x.members = n ∧ x.rank = bits r 75 64 ∧
              x.tiles.length = c.tiles.length ∧ (∀ v ∈ x.tiles, v.k = 0 ∧ v.fin = false ∧ v.can = false) ∧
              (c.version = 0x0300 → memFrame s t c.cnt c.tiles.length ∧
                ∀ i < c.tiles.length, readByte t.mem (c.cnt + i) = 0) ∧
              (c.version = 0x0200 → t.mem = s.mem) ∧ p x
          (u2.countersLost c = true → c.contributes = false → ∃ t y x, exec (.collJobStart id) s = .next t ∧
            t.job id = some y ∧ y.kind = .coll record (some x) ∧ x.result = 0x0B ∧ t.mem = u2.mem ∧
            ∀ v ∈ x.tiles, v.fin = true ∧ v.can = true) ∧
          (u2.countersLost c = false → c.contributes = false → runs fun x => x.result = 0) ∧
          (u2.countersLost c = false → c.contributes = true → ∀ u3 k3,
            let es := if c.fmt = 0 then 4 else 2
            let len := c.tileCount * 256 * es
            let k0 : Job := { k2 with
              started := true, src := [], stale := []
              kind := .coll record (some { c.spoilt k2.stale with read := false }) }
            State.readOnce true (len / 64 + 2) ((u2.counterWrites c).putJob k0) k0 c.src len = (u3, k3, none) →
            let value (i : Nat) : Option Nat := k3.elem (c.src.toNat + es * i) es
            runs fun x =>
              x.result = (if ∀ i < c.tileCount * 256, (value i).isSome then 0 else 0x0A) ∧
              ∀ tile a, c.destOf tile c.rank = some a → ∃ y vs, x.tiles[a]? = some y ∧ y.wholes = [(c.rank, vs)] ∧
                y.headers = [(c.rank, tileHeader vs)] ∧
                ∀ i < 256, vs[i]? = some (sourceF32 c.fmt (value (256 * tile + i)))))) ∧
    (∀ c tile from_ x e sp y, j.kind = .coll record (some c) → s.collOfCid c.cid = some (j, record, c) →
      c.destOf tile from_ = some x → from_ ≠ c.rank → c.tiles[x]? = some y → y.fin = false →
      let takes (o : Host.Outcome State Fault Refusal) (y' : CollTile) : Prop :=
        let c' : Coll := { c with tiles := c.tiles.set x y' }
        let j' : Job := { j with kind := .coll record (some c') }
        let k := c'.ready x y'
        let y'' : CollTile := { y' with k := k, fin := decide (k = c.planeCount) }
        let va := c.dst + BitVec.ofNat 64 (1024 * x)
        (c.read = false ∨ k ≤ y.k →
          ∃ t i, o = .next t ∧ t.mem = s.mem ∧ t.job id = some i ∧ i.kind = .coll record (some c')) ∧
        (c.read = true → y.k < k → State.writeStop j' 18 (s.putJob j') va 1024 = none → y.spoiled = false → s.faults = [] →
          let w := State.writeTile j' 18 (s.putJob j') j.pts va 1024 (packBits 32 (c'.tileValue x y' k))
          w.2.2 = none → c.version = 0x0200 ∨ s.inRetired c.cnt = false →
          ∃ t i c'', o = .next t ∧ t.job id = some i ∧ i.kind = .coll record (some c'') ∧ c''.tiles[x]? = some y'' ∧
            (c.version = 0x0200 → t.mem = w.1.mem) ∧
            (c.version ≠ 0x0200 → inBank (c.cnt + x) = true → memFrame w.1 t (c.cnt + x) 1 ∧
              readByte t.mem (c.cnt + x) = BitVec.ofNat 8 y''.byte))
      ((y.headers.any fun h => h.1 = from_) = false →
        takes (exec (.exponentHeaderReceive c.cid tile from_ e sp false c.digest) s)
          { y with headers := y.headers ++ [(from_, e, sp)] }) ∧
      (∀ plane bs, y.plane from_ plane = none →
        takes (exec (.planePacketReceive c.cid tile plane from_ bs true) s)
          { y with planes := y.planes ++ [(from_, plane, bs % 2 ^ 256)] }) ∧
      (∀ vs, y.wholes.lookup from_ = none →
        takes (exec (.wholeValueTileReceive c.cid tile from_ vs) s)
          { y with wholes := y.wholes ++ [(from_, vs.take 256)] })) ∧
    (∀ c tile from_ x y plane bs, j.kind = .coll record (some c) → s.collOfCid c.cid = some (j, record, c) →
      c.destOf tile from_ = some x → c.tiles[x]? = some y → y.fin = false →
      ∃ t k c', exec (.planePacketReceive c.cid tile plane from_ bs false) s = .next t ∧ t.job id = some k ∧
        k.kind = .coll record (some c') ∧ c'.drops = c.drops + 1 ∧
        c'.tiles[x]? = some { y with fin := true, can := true }) ∧
    (∀ c tile from_ e sp w d, j.kind = .coll record (some c) → s.collOfCid c.cid = some (j, record, c) → d ≠ c.digest →
      ∃ t k c', exec (.exponentHeaderReceive c.cid tile from_ e sp w d) s = .next t ∧ t.job id = some k ∧
        k.kind = .coll record (some c') ∧ c'.result = 0x08 ∧ ∀ y ∈ c'.tiles, y.k = 0 ∧ y.fin = true ∧ y.can = true) ∧
    (∀ c tile who, j.kind = .coll record (some c) → s.collOfCid c.cid = some (j, record, c) →
      ∃ t k, exec (.planeCancelReceive c.cid tile who) s = .next t ∧ t.mem = s.mem ∧ t.job id = some k ∧
        k.kind = .coll record (some { c with cancels := c.cancels ++ [(tile, who)] })) ∧
    (∀ c h, j.kind = .coll record (some c) → c.read = true →
      let j' : Job := { j with kind := .coll record (some { c with told := true }) }
      let w := State.jobWrite j' false 2 (s.putJob j') j.pts (record + 48) 8
        (c.drops % 2 ^ 32 + c.result * 2 ^ 32 + b2n c.whole * 2 ^ 40)
      (c.finished = false → exec (.collComplete id) s = .next (s.putJob j')) ∧
      (c.finished = true → c.version ≠ 0x0200 →
        (∀ v, w = .inl v → j.completion = .counter h →
          ∃ t, exec (.collComplete id) s = .next t ∧ t.job id = none ∧ t.mem = v.1.mem ∧
            Table.get 0 t.depCounters h = Table.get 0 v.1.depCounters h - 1) ∧
        ∀ v va, w = .inr (v, .absent va) → j.refusedPage va = false →
          ∃ t i, exec (.collComplete id) s = .next t ∧ t.job id = some i ∧ i.kind = j'.kind ∧ i.request.isSome = true)) ∧
    (∀ u p v po h, j.kind = .reshard record 0 0 none → j.refused = false → j.ending = none → j.completion = .counter h →
      s.jobHeld j = false →
      s.jobRead j record 320 = .inl (u, p, v, po) →
      let old := blockProg v
      let live := (s.liveReshard j.root record j.id).isSome
      let ends (t : State) (i : Job) (state status : Nat) : Prop :=
        ∀ w, t.writeProgress i record (progressOf old state status) = .inl w →
          ∃ z, exec (.reshardBlock id []) s = .next z ∧ z.job id = none ∧ z.mem = w.1.mem ∧
            Table.get 0 z.depCounters h = Table.get 0 w.1.depCounters h - 1
      (live = true → ends u { j with pts := p } (bits old 7 0) 0x0B) ∧
      (live = false → bits old 7 0 = 2 →
        ∃ z, exec (.reshardBlock id []) s = .next z ∧ z.job id = none ∧ z.mem = s.mem ∧
          Table.get 0 z.depCounters h = Table.get 0 s.depCounters h - 1) ∧
      (live = false → bits old 7 0 ≠ 2 → ∀ u2 q,
        (∀ m, u.validatePlan { j with pts := p } v = .inl (u2, q, .inr m) → ends u2 { j with pts := q } 4 m) ∧
        ∀ pl, u.validatePlan { j with pts := p } v = .inl (u2, q, .inl pl) →
          (bits old 7 0 ≠ 0 → bits old 255 192 ≠ planHash pl → ends u2 { j with pts := q } 4 0x0A) ∧
          (bits old 7 0 = 0 ∨ bits old 255 192 = planHash pl →
            let cursor := if bits old 7 0 = 0 then 0 else bits old 127 64
            let bytes := if bits old 7 0 = 0 then 0 else bits old 191 128
            let i : Job := { j with pts := q, foot := planFoot j.root s.module.toNat pl }
            (u2.jobHeld i = true → exec (.reshardBlock id []) s = .next (u2.putJob i)) ∧
            (u2.jobHeld i = false → ∀ w, u2.writeProgress i record
                { old := old, state := 1, status := bits old 15 8, cursor := cursor, bytes := bytes, chk := planHash pl }
                  = .inl w →
              ∃ z k, exec (.reshardBlock id []) s = .next z ∧ z.job id = some k ∧ z.mem = w.1.mem ∧ k.pos = j.pos ∧
                k.started = true ∧ k.kind = .reshard record cursor bytes (some (s.resumed j.root record (bits old 7 0) pl)))))) ∧
    (∀ cursor bytes, j.kind = .reshard record cursor bytes none → j.ending = none → s.jobHeld j = true →
      exec (.reshardBlock id []) s = .next s) ∧
    (∀ cursor bytes pl remote h, j.kind = .reshard record cursor bytes (some pl) → j.refused = false → j.ending = none →
      j.completion = .counter h →
      let place := positionOf s.module.toNat pl.db
      (∀ n b u2 p2 l u3 p3 w, place = some n → (shardBlocks pl.dst n)[cursor]? = some b →
        let ps := blockPieces pl s.module.toNat n b
        let more := bytes + ps.length * tlrEs pl.dst
        gatherPieces pl s.module.toNat j ps remote [] s j.pts = .inl (u2, p2, l) →
        writeLines j l u2 p2 = .inl (u3, p3) →
        u3.writeProgress { j with pts := p3 } record (pl.progress 1 (bits pl.prog 15 8) (cursor + 1) more) = .inl w →
        ∃ t k, exec (.reshardBlock id remote) s = .next t ∧ t.mem = w.1.mem ∧ t.job id = some k ∧ k.pos = j.pos + 1 ∧
          k.kind = .reshard record (cursor + 1) more (some pl)) ∧
      (place = none ∨ (∃ n, place = some n ∧ (shardBlocks pl.dst n)[cursor]? = none) →
        ∀ w, (s.keepBefore j.root record none).writeProgress j record (pl.progress 2 0 cursor bytes) = .inl w →
          ∃ t, exec (.reshardBlock id remote) s = .next t ∧ t.job id = none ∧ t.mem = w.1.mem ∧
            Table.get 0 t.depCounters h = Table.get 0 w.1.depCounters h - 1)) ∧
    (∀ cursor bytes pl h, j.kind = .reshard record cursor bytes (some pl) → j.ending = none → j.completion = .counter h →
      ∀ f ∈ ([(.preempted, 3, 0x13), (.linkLost, 4, 0x10), (.pageRefused, 4, 0x11), (.protection, 4, 0x12)] :
          List (ReshardStop × Nat × Nat)),
        ∀ w, (s.keepBefore j.root record (some pl.before)).writeProgress { j with refused := false } record
            (pl.progress f.2.1 f.2.2 cursor bytes) = .inl w →
          ∃ t, exec (.reshardStop id f.1) s = .next t ∧ t.job id = none ∧ t.mem = w.1.mem ∧
            Table.get 0 t.depCounters h = Table.get 0 w.1.depCounters h - 1)

/-- R22 to R25, R157, R167, R170, R185, R249 and R252: a line in error is written back or latched in STKERR, where a higher
KIND replaces a lower one; a page outcome ends its request, makes the page present and ends the wait; a page release drops L1
copies and lines of the slices; the host writes the masked bytes of a line, of HBM only in its granules, and reads one there.
That a page release names a physical range is the model's choice (log entry 36). -/
def Obligations.MemoryEvents : Prop :=
  ∀ (line n data mask base size entryAt : Nat) (entry : Word) (resident keeps : Bool) (s : State),
    (s.corrections.contains line = true →
      ∃ t, exec (.cellErrorWriteBack line) s = .next t ∧ t = { s with corrections := t.corrections, faults := t.faults } ∧
        (∀ f, f ∈ t.faults ↔ f ∈ s.faults ∧ ¬ (f.1 = line ∧ ∃ w, f.2 = .cellSingle w)) ∧
        t.corrections.contains line = false) ∧
    (s.corrections.contains line = false → exec (.cellErrorWriteBack line) s = .next s) ∧
    (0x1000000000000 ≤ 64 * line → 64 * line < 0x1000400000000 → 64 * line % 0x400000 < 0x300000 →
      (s.faultsAt line = [] → s.inRetired (64 * line) = false → exec (.scrubLine line) s = .next s) ∧
      ∀ w, s.faultsAt line = [.cellSingle w] → s.inRetired (64 * line) = false →
        ∃ t, exec (.scrubLine line) s = .next t ∧ t.mem = s.mem ∧ t.me = s.me ∧ t.corrections.contains line = true ∧
          t.stkerr = if s.stkerr.getLsbD 63 = false ∨ bits s.stkerr.toNat 62 60 < 2 then
            stkerrWord 2 (clusterOfPa (64 * line)) (bankOfPa (64 * line)) 0
              (64 * line % 2 ^ 22 / 64 * 8 + w) false true else s.stkerr) ∧
    (∀ r, s.requests[n]? = some r → r.job = none → r.loc = some s.cur → s.me.status = .waiting (.page r.va) →
      s.me.woken = none →
      ∃ t, exec (.pageRequestOutcome n resident entryAt entry) s = .next t ∧ (∀ q ∈ t.requests, q.id ≠ r.id) ∧
        t.me.woken = some (if resident then .completes else .refused) ∧ t.me.regs = s.me.regs ∧
        (resident = false ∨ s.noPa entryAt = true → t.mem = s.mem) ∧
        (resident = true → s.noPa entryAt = false →
          loadBytes t.mem entryAt 8 = entry.toNat ∧ memFrame s t entryAt 8)) ∧
    (∃ t, exec (.pageReleaseRequest base size) s = .next t ∧ t.mem = s.mem ∧ t.me.regs = s.me.regs ∧
      (∀ k, k ∈ t.l1 ↔ k ∈ s.l1 ∧ ¬ (base < 64 * k.line + 64 ∧ 64 * k.line < base + size)) ∧
      (∀ k, k ∈ t.l2 ↔ k ∈ s.l2 ∧ ¬ (base < 64 * k.line + 64 ∧ 64 * k.line < base + size)) ∧
      ∀ r ∈ s.me.regions, s.regionMeets s.me.ptroot base size r = true → { r with stale := true } ∈ t.me.regions) ∧
    (Memory.wf s.mem = true →
      let writes (o : Host.Outcome State Fault Refusal) : Prop :=
        ∃ t, o = .next t ∧ t.me = s.me ∧ memFrame s t (64 * line) 64 ∧ ∀ i < 64, readByte t.mem (64 * line + i) =
          if mask / 2 ^ i % 2 = 1 then BitVec.ofNat 8 (data / 256 ^ i) else readByte s.mem (64 * line + i)
      (0x8000000000000 ≤ 64 * line → 64 * line < 0x10000000000000 → writes (exec (.hostSnoopWrite line data mask) s)) ∧
      (64 * line < 0x6000000000 → s.mgmt.cxl = true → s.mgmt.hdm.getLsbD (64 * line / 2 ^ 30) = true →
        writes (exec (.hostCxlMemWrite line (.write data mask) keeps) s) ∧
        ∃ t, exec (.hostCxlMemWrite line .read keeps) s = .next t ∧ t.mem = s.mem ∧ t.me = s.me ∧
          (line ∈ t.hostLines ↔ keeps = true))) ∧
    ∀ op, 0x6000000000 ≤ 64 * line ∨ s.mgmt.cxl = false ∨ s.mgmt.hdm.getLsbD (64 * line / 2 ^ 30) = false →
      exec (.hostCxlMemWrite line op keeps) s = .next s

/-- R8, R18, R27, R83, R249, R253 to R257, R259 to R264: a flit in order advances its link and frees what it
acknowledges, a bad one or one out of order asks for a replay and does no more, and the eighth failed replay of either
end retrains the link, as does a partner that trains it anew (log entry 94); a training sets a link up and measures its
latency; a sample lowers or raises the clocks and may stop the module; management, firmware, attestation, and the two
resets. What a device reset keeps (log entry 23), whether a slot verifies then (10, a free value) and that nothing boots
where neither does (95), how the power cap lowers clocks (72), the CRC-64 (75), the thermal model (76), the power of
condition 2 (78) and that the 1 s of R254 is counted at the clock of tower 0 (6) are the model's readings. -/
def Obligations.ManagementEvents : Prop :=
  ∀ (link : Fin 12) (flit : BitVec 2048) (version : Byte) (al pl sig identity replay : Bool) (partner m : BitVec 12)
    (trips : List Nat) (k ver lat : Nat) (x : Sample) (hdm : BitVec 384) (s : State),
    let y := s.link link
    let good := flit.extractLsb' 1984 64 = Config.crc64 (flit.toNat % 2 ^ 1984)
    let kind := bits flit.toNat 28 25
    let ack := flit.extractLsb' 12 12
    let freed (l : Link) : Link := { l with
      unacked := min l.unacked (l.sendSeq - (ack + 1)).toNat, lastAck := ack, naks := if ack = l.lastAck then l.naks else 0 }
    let counted (l : Link) : Link := { l with retry := if l.retry = BitVec.allOnes 16 then l.retry else l.retry + 1 }
    let heard : Link := if flit.getLsbD 24 then { counted (freed y) with naks := (freed y).naks + 1 } else freed y
    let retrained (z : Link) : Prop := z.up = false ∧ z.naking = false ∧ z.naks = 0 ∧ (z.training = true ∨ z.lost = true)
    let linked (o : Host.Outcome State Fault Refusal) (p : Link → Prop) : Prop :=
      ∃ t, o = .next t ∧ t.mem = s.mem ∧ t.me = s.me ∧ p (t.link link) ∧ ∀ i, i ≠ link → t.link i = s.link i
    (y.up = true → good → kind ≠ 3 → flit.extractLsb' 0 12 = y.nextSeq →
      (9 ≤ heard.naks → linked (exec (.flitReceive link flit replay) s) retrained) ∧
      (heard.naks < 9 → linked (exec (.flitReceive link flit replay) s) fun z =>
        z = { heard with nextSeq := y.nextSeq + 1, naking := false, fails := 0 })) ∧
    (y.up = true → ¬ good ∨ (kind ≠ 3 ∧ flit.extractLsb' 0 12 ≠ y.nextSeq) →
      (y.naking = false → linked (exec (.flitReceive link flit replay) s) fun z =>
        z = { counted y with naking := true, fails := 0 }) ∧
      (y.naking = true → linked (exec (.flitReceive link flit false) s) fun z => z = y) ∧
      (y.naking = true → y.fails < 7 → linked (exec (.flitReceive link flit true) s) fun z =>
        z = { counted y with fails := y.fails + 1 }) ∧
      (y.naking = true → 7 ≤ y.fails → linked (exec (.flitReceive link flit true) s) retrained)) ∧
    (y.up = false ∨ (good ∧ kind = 3) → exec (.flitReceive link flit replay) s = .next s) ∧
    (let recent := (y.retrains.filter fun t => decide (s.cycle < t + s.secondCycles)).length
     (y.up = true → 2 ≤ recent → linked (exec (.linkTrainingComplete link sig version ⟨al, pl⟩ partner trips) s) fun z =>
        z.up = false ∧ z.training = false ∧ z.lost = true) ∧
     ((y.up = false ∧ y.training = true) ∨ (y.up = true ∧ recent < 2) →
      (64 ≤ k → ∃ t, exec (.linkTrainingComplete link true version ⟨al, pl⟩ partner (List.replicate k lat)) s = .next t ∧
        (t.link link).up = true ∧ (t.link link).training = false ∧ (t.link link).lost = false ∧
        (t.link link).align = al ∧ (t.link link).latency = lat / 2 ∧ (t.link link).plane = pl ∧
        (t.link link).partner = partner ∧ (t.link link).ver.toNat = min version.toNat 2 ∧
        (t.link link).nextSeq = 0 ∧ (t.link link).sendSeq = 0 ∧ (t.link link).unacked = 0) ∧
      (trips.length < 64 → ∃ t, exec (.linkTrainingComplete link true version ⟨al, pl⟩ partner trips) s = .next t ∧
        (t.link link).up = true ∧ (t.link link).align = false) ∧
      ∃ t, exec (.linkTrainingComplete link false version ⟨al, pl⟩ partner trips) s = .next t ∧
        (t.link link).up = false ∧ (t.link link).training = false ∧ (y.up = false → t.link link = { y with training := false }))) ∧
    (y.up = false → y.training = false → exec (.linkTrainingComplete link sig version ⟨al, pl⟩ partner trips) s = .next s) ∧
    (let hot (d : DieClass) : Int := match d with | .compute | .service => 100000 | .sram => 95000 | .hbm => 90000
      ∃ t, exec (.sensorSample x) s = .next t ∧ t.mem = s.mem ∧ t.me = s.me ∧
        (∀ i, i ∈ t.mgmt.failedSensors ↔ i ∈ s.mgmt.failedSensors ∨ ∃ r ∈ sampleReadings x, sensorId r = i ∧
          (r.milliC < -40000 ∨ 150000 < r.milliC ∨ 15000 < (r.milliC - estimate x i).natAbs ∨
            ((∃ e ∈ t.mgmt.still, e.1 = i ∧ 2000 ≤ e.2.2) ∧ powerMoved t.mgmt.power[r.tower] = true))) ∧
        t.mgmt.setting = (if 2000000 < modulePower x then max 600 (s.mgmt.setting - 25)
          else min 1200 (s.mgmt.setting + 25)) ∧
        (t.mgmt.tripped = true ↔ s.mgmt.tripped = true ∨
          ∃ w : Fin 4, ∃ r ∈ t.governing w.val x, hot r.1 + 15000 - t.lowered w.val ≤ r.2) ∧
        ∀ w : Fin 4,
          let g := t.governing w.val x
          let low := t.lowered w.val
          t.mgmt.clocks[w] = min (if s.detAct then 1000 else t.mgmt.setting) t.mgmt.thermal[w] ∧
          t.mgmt.thermal[w] =
            if 9 ≤ t.failedIn w.val then 600
            else if ∃ r ∈ g, hot r.1 - low < r.2 then max 600 (s.mgmt.clocks[w] - 25)
            else if g ≠ [] ∧ ∀ r ∈ g, r.2 ≤ hot r.1 - low - 3000 then min 1200 (s.mgmt.thermal[w] + 25)
            else s.mgmt.thermal[w]) ∧
    (∃ t, exec (.managementServiceCommand (.clearRetired k)) s = .next t ∧ t.retired = s.retired.filter (fun i => i ≠ k) ∧
      memFrame s t (scratchPa (k / 64) (k % 64) 0) 0x300000 ∧ t.me = s.me ∧
      (k ∉ s.retired → t = s)) ∧
    (∃ t, exec (.managementServiceCommand (.setModule m)) s = .next t ∧ t.module = m ∧ t.mem = s.mem ∧ t.me = s.me) ∧
    (∃ t, exec (.firmwareUpdate sig (if identity then .identity ver else .firmware ver)) s = .next t ∧ t.mgmt.fwActive = s.mgmt.fwActive ∧
      (sig = true → s.mgmt.rollback ≤ ver → identity = false →
        t.mgmt.fwNext = s.mgmt.fwActive + 1 ∧ t.mgmt.fwVersions[s.mgmt.fwActive + 1] = ver) ∧
      (sig = true → s.mgmt.rollback ≤ ver → identity = true →
        t.mgmt.identity = ver ∧ t.mgmt.fwNext = s.mgmt.fwNext ∧ t.mgmt.fwVersions = s.mgmt.fwVersions) ∧
      (sig = false ∨ ver < s.mgmt.rollback →
        t.mgmt.fwNext = s.mgmt.fwNext ∧ t.mgmt.fwVersions = s.mgmt.fwVersions ∧ t.mgmt.identity = s.mgmt.identity ∧
          t.mgmt.logSeq = s.mgmt.logSeq + 1)) ∧
    (∃ t, exec .attestationRequest s = .next t ∧ t = { s with mgmt := { s.mgmt with attested := t.mgmt.attested } } ∧
      s.mgmt.fwVersions[s.mgmt.fwActive] ∈ t.mgmt.attested ∧ (∀ b ∈ s.retired, b ∈ t.mgmt.attested) ∧
      ∀ e ∈ s.images, e.2 ∈ t.mgmt.attested) ∧
    (let a := s.mgmt.fwNext
      let passes (i : Nat) (slot : Fin 2) : Prop :=
        Config.slotVerifies (s.freeCount + i) = true ∧ s.mgmt.rollback ≤ s.mgmt.fwVersions[slot]
      let runs (t : State) (slot : Fin 2) (refused : Nat) : Prop := t.mgmt.stopped = false ∧ t.mgmt.fwActive = slot ∧
        t.mgmt.rollback = max s.mgmt.rollback s.mgmt.fwVersions[slot] ∧ t.mgmt.logSeq = s.mgmt.logSeq + refused
      let boots (t : State) : Prop := (passes 0 a → runs t a 0) ∧ (¬ passes 0 a → passes 1 (a + 1) → runs t (a + 1) 1) ∧
        (¬ passes 0 a → ¬ passes 1 (a + 1) → t.mgmt.stopped = true ∧ t.mgmt.rollback = s.mgmt.rollback ∧
          t.mgmt.logSeq = s.mgmt.logSeq + 2)
      (∃ t, exec .deviceReset s = .next t ∧ t.me = Ctx.reset ∧ t.others = [] ∧ t.jobs = [] ∧ t.queues = [] ∧
        t.timeStep = 0 ∧ t.tvec = 0 ∧ t.stkerr = 0 ∧ t.mem = s.mem ∧ t.retired = s.retired ∧
        (passes 0 a → t.mgmt.log = s.mgmt.log ∧ t.mgmt.ring = s.mgmt.ring) ∧ t.mgmt.tripped = false ∧ boots t ∧
        ∀ i, (t.link i).up = false ∧ (t.link i).training = true ∧ (t.link i).lost = (s.link i).lost) ∧
      ∃ t, exec (.powerOn hdm) s = .next t ∧ t.me = Ctx.reset ∧ t.others = [] ∧ t.jobs = [] ∧ t.mem = [] ∧
        t.retired = s.retired ∧ boots t ∧
        ((List.range 384).countP (fun i => hdm.getLsbD i) ≤ 256 → t.mgmt.hdm = hdm))

/-! The whole machine. -/

/-- R8, R91, R99, R111, R168, R224, R255 and R377: what reset leaves, where the manual gives the value: a context is Idle
with its registers at zero but VSHP 0x3F1F and EFR 0x5, its loop stack and banks empty; the time step is 0 with LOGT 12;
every queue is disabled and empty; memory lists nothing, in canonical form (what it then reads as is log entry 1). -/
def Obligations.ResetValues : Prop :=
  let s := State.reset
  (∀ l, s.ctx l = Ctx.reset) ∧ Ctx.reset.status = .idle ∧ (∀ r : SReg, Ctx.reset.regs.sget r = 0) ∧
    (∀ r : SReg, Ctx.reset.regs.poison r = false) ∧ (∀ p : PReg, Ctx.reset.regs.pget p = decide (p = 0)) ∧
    Ctx.reset.regs.vshp = 0x3F1F#64 ∧ Ctx.reset.efr = 0x5#64 ∧ Ctx.reset.loops = [] ∧ Ctx.reset.banks = 0 ∧
    Ctx.reset.srkey = 0 ∧ Ctx.reset.srorg = 0 ∧ Ctx.reset.fatab = 0 ∧ Ctx.reset.memctl = 0 ∧ Ctx.reset.ceerr = 0 ∧
    Ctx.reset.svcur = 0 ∧ Ctx.reset.cseq = 0 ∧ Ctx.reset.lcnt = 0 ∧
    s.timeStep = 0 ∧ s.logT = 12 ∧ s.detReq = false ∧ s.detAct = false ∧ s.tvec = 0 ∧ s.stkerr = 0 ∧ s.arosel = 0 ∧
    (∀ e ∈ s.aroTable.toList, e = 0) ∧ (∀ q, (Table.get Queue.reset s.queues q).en = false) ∧
    (∀ k, (s.cluster k).svbase = 0) ∧ (∀ l ∈ s.links.toList, l.up = false ∧ l.retry = 0) ∧
    s.mem = [] ∧ Memory.wf s.mem = true

/-- R279, R325 and R377 with R71 and R73: s0 reads 0 without poison, p0 true and m0 all ones, and each discards a write; a
write of any other register is read back and leaves every other register alone; a result is visible from its cycle on, and
of two to one register in one cycle the later slot, then the later issued, stays. -/
def Obligations.RegisterFile : Prop :=
  (∀ r : Regs, r.sget 0 = 0 ∧ r.poison 0 = false ∧ r.pget 0 = true ∧ r.mget 0 = BitVec.allOnes 8192) ∧
  (∀ (r : Regs) (v : Word) (po b : Bool) (k : MaskVal) (sel : Option MaskVal),
    (RegWrite.scalar 0 v po).apply r = r ∧ (RegWrite.pred 0 b).apply r = r ∧ (RegWrite.mask 0 k sel).apply r = r) ∧
  (∀ (r : Regs) (d c : SReg) (v : Word) (po : Bool), d ≠ 0 →
    let t := (RegWrite.scalar d v po).apply r
    t.sget c = (if c = d then v else r.sget c) ∧ t.poison c = (if c = d then po else r.poison c) ∧
      t = { r with s := t.s, sp := t.sp }) ∧
  (∀ (r : Regs) (d c : PReg) (b : Bool), d ≠ 0 →
    let t := (RegWrite.pred d b).apply r
    t.pget c = (if c = d then b else r.pget c) ∧ t = { r with p := t.p }) ∧
  (∀ (r : Regs) (d c : MReg) (k : MaskVal), d ≠ 0 →
    let t := (RegWrite.mask d k none).apply r
    t.mget c = (if c = d then k else r.mget c) ∧ t = { r with m := t.m }) ∧
  (∀ (r : Regs) (d c : VReg) (v : VecVal),
    let t := (RegWrite.vec d v none).apply r
    t.vget c = (if c = d then v else r.vget c) ∧ t = { r with v := t.v }) ∧
  (∀ (r : Regs) (d c : EReg) (v : ScaleVal),
    let t := (RegWrite.scale d v).apply r
    t.eget c = (if c = d then v else r.eget c) ∧ t = { r with e := t.e }) ∧
  (∀ (r : Regs) (v : Word), (RegWrite.shape v).apply r = { r with vshp := v }) ∧
  (∀ (c : Ctx) (f : Flight) (n : Nat), c.inflight = [f] →
    (c.retire n).regs = if f.due ≤ n then f.w.apply c.regs else c.regs) ∧
  (∀ (f : Flight) (fl : List Flight),
    fl.Pairwise (fun a b => a.due < b.due ∨ a.due = b.due ∧ a.slot ≤ b.slot) →
    ∃ l1 l2, insertFlight f fl = l1 ++ f :: l2 ∧ fl = l1 ++ l2 ∧
      (∀ g ∈ l1, g.due < f.due ∨ g.due = f.due ∧ g.slot ≤ f.slot) ∧
      (∀ g ∈ l2, f.due < g.due ∨ f.due = g.due ∧ f.slot < g.slot))

/-- R25 with R14: the record of an error of the stacked layers, when it replaces the latched one, and how it is cleared. -/
def Obligations.StackErrors : Prop :=
  State.reset.stkerr = 0 ∧
  (∀ (kind cluster bank group word : Nat) (wr engine : Bool) (s : State),
    kind < 8 → cluster < 64 → bank < 64 → group < 18 → word < 393216 →
    let t := (s.stackError kind cluster bank group word wr engine).stkerr
    if s.stkerr.getLsbD 63 = true ∧ kind ≤ (s.stkerr.extractLsb' 60 3).toNat then t = s.stkerr
    else
      t.getLsbD 63 = true ∧ (t.extractLsb' 60 3).toNat = kind ∧ (t.extractLsb' 58 2).toNat = cluster / 16 ∧
        (t.extractLsb' 56 2).toNat = bank / 16 ∧ (t.extractLsb' 52 4).toNat = cluster % 16 ∧
        (t.extractLsb' 46 6).toNat = bank ∧ (t.extractLsb' 41 5).toNat = group ∧ t.getLsbD 40 = wr ∧
        t.getLsbD 39 = engine ∧ t.extractLsb' 19 20 = 0 ∧ (t.extractLsb' 0 19).toNat = word) ∧
  (∀ (s : State) (x : Word), (s.sysw .stkerr x).stkerr = if x.getLsbD 63 then 0 else s.stkerr) ∧
  (∀ s : State, ∃ t, exec .stkerrClear s = .next t ∧ t.stkerr = 0)

/-- R48, R71, R87, R152, R211, R212 and R261: what a step is. An event from outside that has arrived comes first (a
stopped module takes only its resets, R261; that its records still go to the host's ring is the model's choice, log
entries 77 and 95), then, where no bundle's wait is done, a due event of the module; in the first part of a cycle the
contexts issue in turn: the bundle at the pc of one that may issue runs, for a bundle of one syllable `exec` of the
decoded instruction, settled by `commit`, after which the next context acts; in the second part the engines act, and the
cycle ends. The order is the model's choice (log entries 4 and 59). -/
def Obligations.StepRunsDecoded : Prop :=
  (∀ (s : State) (i : Instr) (rest : List Instr), s.inputs = i :: rest →
    (s.mgmt.stopped = false ∨ resets i = true → step s = exec i { s with inputs := rest }) ∧
    (s.mgmt.stopped = true → resets i = false → step s = .next { s with inputs := rest })) ∧
  (∀ s : State, s.inputs = [] → s.mgmt.stopped = true → step s = .next s.copyRecord) ∧
  (∀ (s : State) (a : Act) (rest : List Act), s.inputs = [] → s.mgmt.stopped = false → s.waitDone.isNone = true →
    s.dueEvents = a :: rest → step s = a.perform s) ∧
  (∀ s : State, s.inputs = [] → s.mgmt.stopped = false → s.waitDone.isNone = true → s.dueEvents = [] →
    (s.engines = false → s.mayIssue = false → step s = .next s.rotate) ∧
    (s.engines = true → s.freeEvents = [] → step s = .next s.endCycle) ∧
    (s.engines = true → s.freeEvents ≠ [] →
      let n := Config.choose s.freeCount % (s.freeEvents.length + 1)
      (n = s.freeEvents.length → step s = .next s.drawn.endCycle) ∧
      ∀ a, s.freeEvents[n]? = some a → step s = a.perform s.drawn)) ∧
  (∀ (s : State) (ws : List Nat) (k : Nat) (i : Instr),
    s.inputs = [] → s.mgmt.stopped = false → s.waitDone.isNone = true → s.dueEvents = [] → s.engines = false →
    s.me.held = none → s.me.issues = true → (s.core (coreOf s.cur)).current = some (Fin.ofNat 4 s.cur) →
    (s.core (coreOf s.cur)).notBefore ≤ s.cycle → s.me.nextAt ≤ s.cycle → s.me.faCall = none →
    s.me.gidx.getLsbD 63 = false → s.me.ganged = false →
    let u := { s with me := { s.me.arrive s.cycle with atPoint := false } }
    let b : Bundle := { syls := [(k, i)], errs := [] }
    let r := u.fetchReads ws.length
    u.fetch = .ok ws → decodeBundle u.me.delay.isSome ws = b → stallUntil u.me u.cycle b.syls = none → preTrap r b = none →
    step s =
      match exec i { r with
          me := r.me.deliver r.cycle
          issue := { startIssue b.syls ws.length none none with slot := some k } } with
      | .next v =>
        let w := if v.issue.hold = false ∧ (bundleTrap r v).map (·.cause) = some 8
          then { r with me := r.me.dropEcc r.cycle b.syls } else r
        (match commit w v with
          | .next t => .next t.rotate
          | .fault r => .fault r
          | .refused r => .refused r)
      | .fault r => .fault r
      | .refused r => .refused r)

/-- The example words of the manual decode to the instructions they stand for (R56 to R70 and the entries of the forms). -/
def Obligations.DecodeWords : Prop :=
  decodeTableWord 32 0x80050210 = some (.add 10 1 2 0) ∧ decodeTableWord 32 0x8043904A = some (.and 7 8 9 2) ∧
  decodeTableWord 32 0x89405E05 = some (.loop 47 5) ∧ decodeTableWord 32 0x82808498 = some (.plog 1 2 .xor 3 0) ∧
  decodeTableWord 32 0x92811000 = some (.vred 1 2 .add .f32 0) ∧
  decodeTableWord 32 0xA010D000 = some (.sfrcp 2 3 2 .f32 0) ∧
  decodeTableWord 32 0xB28428C2 = some (.ldv 4 10 3 2) ∧ decodeTableWord 32 0xBA021810 = some (.sldv 4 12 16) ∧
  decodeTableWord 32 0xC1A49420 = some (.bankgive 9 10 4 0) ∧ decodeTableWord 32 0xC2B50000 = some (.tswait 42 0)

/-- Decoding undoes encoding: every well-formed syllable has a word of 31 bits with at most two X payloads of 28 bits, and
these decode to it (R49, R53, R56 to R70). -/
def Obligations.EncodeDecode : Prop :=
  ∀ i : Instr, i.isSyllable = true → i.wellFormed = true →
    ∃ w xs, encodeSyl i = some (w, xs) ∧ w < 2 ^ 31 ∧ xs.length ≤ 2 ∧ (∀ x ∈ xs, x < 2 ^ 28) ∧
      decodeSyl w xs = .ok i ∧ encode i = w :: xs.map (fun x => 5 * 2 ^ 28 + x)

/-- Every step keeps the canonical form of memory: addresses rise strictly, and no listed byte is what an unlisted address
reads as. -/
def Obligations.MemoryFormKept : Prop :=
  ∀ s t : State, Memory.wf s.mem = true → step s = .next t → Memory.wf t.mem = true
end

