-- ==== Sys2Proof/Laws/State.lean ====
section
/-! SUPPORT. Each update of the state, field by field. -/

namespace Sys2Proof.Machine

/-! modMe changes `me` alone. -/

@[simp] theorem State.modMe_cur (s : State) (f : Ctx → Ctx) : (s.modMe f).cur = s.cur := rfl
@[simp] theorem State.modMe_me (s : State) (f : Ctx → Ctx) : (s.modMe f).me = f s.me := rfl
@[simp] theorem State.modMe_others (s : State) (f : Ctx → Ctx) : (s.modMe f).others = s.others := rfl
@[simp] theorem State.modMe_issue (s : State) (f : Ctx → Ctx) : (s.modMe f).issue = s.issue := rfl
@[simp] theorem State.modMe_cycle (s : State) (f : Ctx → Ctx) : (s.modMe f).cycle = s.cycle := rfl
@[simp] theorem State.modMe_nextStep (s : State) (f : Ctx → Ctx) : (s.modMe f).nextStep = s.nextStep := rfl
@[simp] theorem State.modMe_nextTick (s : State) (f : Ctx → Ctx) : (s.modMe f).nextTick = s.nextTick := rfl
@[simp] theorem State.modMe_ptsTicks (s : State) (f : Ctx → Ctx) : (s.modMe f).ptsTicks = s.ptsTicks := rfl
@[simp] theorem State.modMe_inputs (s : State) (f : Ctx → Ctx) : (s.modMe f).inputs = s.inputs := rfl
@[simp] theorem State.modMe_freeCount (s : State) (f : Ctx → Ctx) : (s.modMe f).freeCount = s.freeCount := rfl
@[simp] theorem State.modMe_nextId (s : State) (f : Ctx → Ctx) : (s.modMe f).nextId = s.nextId := rfl
@[simp] theorem State.modMe_cores (s : State) (f : Ctx → Ctx) : (s.modMe f).cores = s.cores := rfl
@[simp] theorem State.modMe_clusters (s : State) (f : Ctx → Ctx) : (s.modMe f).clusters = s.clusters := rfl
@[simp] theorem State.modMe_mem (s : State) (f : Ctx → Ctx) : (s.modMe f).mem = s.mem := rfl
@[simp] theorem State.modMe_lines (s : State) (f : Ctx → Ctx) : (s.modMe f).lines = s.lines := rfl
@[simp] theorem State.modMe_l1 (s : State) (f : Ctx → Ctx) : (s.modMe f).l1 = s.l1 := rfl
@[simp] theorem State.modMe_rowStamps (s : State) (f : Ctx → Ctx) : (s.modMe f).rowStamps = s.rowStamps := rfl
@[simp] theorem State.modMe_homeTick (s : State) (f : Ctx → Ctx) : (s.modMe f).homeTick = s.homeTick := rfl
@[simp] theorem State.modMe_faults (s : State) (f : Ctx → Ctx) : (s.modMe f).faults = s.faults := rfl
@[simp] theorem State.modMe_corrections (s : State) (f : Ctx → Ctx) : (s.modMe f).corrections = s.corrections := rfl
@[simp] theorem State.modMe_retired (s : State) (f : Ctx → Ctx) : (s.modMe f).retired = s.retired := rfl
@[simp] theorem State.modMe_busFaults (s : State) (f : Ctx → Ctx) : (s.modMe f).busFaults = s.busFaults := rfl
@[simp] theorem State.modMe_errorCounts (s : State) (f : Ctx → Ctx) : (s.modMe f).errorCounts = s.errorCounts := rfl
@[simp] theorem State.modMe_stkerr (s : State) (f : Ctx → Ctx) : (s.modMe f).stkerr = s.stkerr := rfl
@[simp] theorem State.modMe_timeStep (s : State) (f : Ctx → Ctx) : (s.modMe f).timeStep = s.timeStep := rfl
@[simp] theorem State.modMe_detReq (s : State) (f : Ctx → Ctx) : (s.modMe f).detReq = s.detReq := rfl
@[simp] theorem State.modMe_detAct (s : State) (f : Ctx → Ctx) : (s.modMe f).detAct = s.detAct := rfl
@[simp] theorem State.modMe_aligned (s : State) (f : Ctx → Ctx) : (s.modMe f).aligned = s.aligned := rfl
@[simp] theorem State.modMe_logT (s : State) (f : Ctx → Ctx) : (s.modMe f).logT = s.logT := rfl
@[simp] theorem State.modMe_logTNext (s : State) (f : Ctx → Ctx) : (s.modMe f).logTNext = s.logTNext := rfl
@[simp] theorem State.modMe_root (s : State) (f : Ctx → Ctx) : (s.modMe f).root = s.root := rfl
@[simp] theorem State.modMe_markersGood (s : State) (f : Ctx → Ctx) : (s.modMe f).markersGood = s.markersGood := rfl
@[simp] theorem State.modMe_alignLost (s : State) (f : Ctx → Ctx) : (s.modMe f).alignLost = s.alignLost := rfl
@[simp] theorem State.modMe_module (s : State) (f : Ctx → Ctx) : (s.modMe f).module = s.module := rfl
@[simp] theorem State.modMe_tvec (s : State) (f : Ctx → Ctx) : (s.modMe f).tvec = s.tvec := rfl
@[simp] theorem State.modMe_engines (s : State) (f : Ctx → Ctx) : (s.modMe f).engines = s.engines := rfl
@[simp] theorem State.modMe_hostLines (s : State) (f : Ctx → Ctx) : (s.modMe f).hostLines = s.hostLines := rfl
@[simp] theorem State.modMe_l2 (s : State) (f : Ctx → Ctx) : (s.modMe f).l2 = s.l2 := rfl
@[simp] theorem State.modMe_l2Demoted (s : State) (f : Ctx → Ctx) : (s.modMe f).l2Demoted = s.l2Demoted := rfl
@[simp] theorem State.modMe_early (s : State) (f : Ctx → Ctx) : (s.modMe f).early = s.early := rfl
@[simp] theorem State.modMe_late (s : State) (f : Ctx → Ctx) : (s.modMe f).late = s.late := rfl
@[simp] theorem State.modMe_icache (s : State) (f : Ctx → Ctx) : (s.modMe f).icache = s.icache := rfl
@[simp] theorem State.modMe_shardBefore (s : State) (f : Ctx → Ctx) : (s.modMe f).shardBefore = s.shardBefore := rfl
@[simp] theorem State.modMe_scrubNext (s : State) (f : Ctx → Ctx) : (s.modMe f).scrubNext = s.scrubNext := rfl
@[simp] theorem State.modMe_scrubStart (s : State) (f : Ctx → Ctx) : (s.modMe f).scrubStart = s.scrubStart := rfl
@[simp] theorem State.modMe_markerLast (s : State) (f : Ctx → Ctx) : (s.modMe f).markerLast = s.markerLast := rfl
@[simp] theorem State.modMe_lastStep (s : State) (f : Ctx → Ctx) : (s.modMe f).lastStep = s.lastStep := rfl
@[simp] theorem State.modMe_leftRegions (s : State) (f : Ctx → Ctx) : (s.modMe f).leftRegions = s.leftRegions := rfl
@[simp] theorem State.modMe_arosel (s : State) (f : Ctx → Ctx) : (s.modMe f).arosel = s.arosel := rfl
@[simp] theorem State.modMe_aroTable (s : State) (f : Ctx → Ctx) : (s.modMe f).aroTable = s.aroTable := rfl
@[simp] theorem State.modMe_generation (s : State) (f : Ctx → Ctx) : (s.modMe f).generation = s.generation := rfl
@[simp] theorem State.modMe_images (s : State) (f : Ctx → Ctx) : (s.modMe f).images = s.images := rfl
@[simp] theorem State.modMe_jobs (s : State) (f : Ctx → Ctx) : (s.modMe f).jobs = s.jobs := rfl
@[simp] theorem State.modMe_breaches (s : State) (f : Ctx → Ctx) : (s.modMe f).breaches = s.breaches := rfl
@[simp] theorem State.modMe_precancels (s : State) (f : Ctx → Ctx) : (s.modMe f).precancels = s.precancels := rfl
@[simp] theorem State.modMe_requests (s : State) (f : Ctx → Ctx) : (s.modMe f).requests = s.requests := rfl
@[simp] theorem State.modMe_queues (s : State) (f : Ctx → Ctx) : (s.modMe f).queues = s.queues := rfl
@[simp] theorem State.modMe_slotRecords (s : State) (f : Ctx → Ctx) : (s.modMe f).slotRecords = s.slotRecords := rfl
@[simp] theorem State.modMe_slotStatus (s : State) (f : Ctx → Ctx) : (s.modMe f).slotStatus = s.slotStatus := rfl
@[simp] theorem State.modMe_served (s : State) (f : Ctx → Ctx) : (s.modMe f).served = s.served := rfl
@[simp] theorem State.modMe_depCounters (s : State) (f : Ctx → Ctx) : (s.modMe f).depCounters = s.depCounters := rfl
@[simp] theorem State.modMe_releases (s : State) (f : Ctx → Ctx) : (s.modMe f).releases = s.releases := rfl
@[simp] theorem State.modMe_depReleases (s : State) (f : Ctx → Ctx) : (s.modMe f).depReleases = s.depReleases := rfl
@[simp] theorem State.modMe_workPts (s : State) (f : Ctx → Ctx) : (s.modMe f).workPts = s.workPts := rfl
@[simp] theorem State.modMe_tasks (s : State) (f : Ctx → Ctx) : (s.modMe f).tasks = s.tasks := rfl
@[simp] theorem State.modMe_saved (s : State) (f : Ctx → Ctx) : (s.modMe f).saved = s.saved := rfl
@[simp] theorem State.modMe_links (s : State) (f : Ctx → Ctx) : (s.modMe f).links = s.links := rfl
@[simp] theorem State.modMe_mgmt (s : State) (f : Ctx → Ctx) : (s.modMe f).mgmt = s.mgmt := rfl
@[simp] theorem State.modMe_counted (s : State) (f : Ctx → Ctx) : (s.modMe f).counted = s.counted := rfl
@[simp] theorem State.modMe_faultRecords (s : State) (f : Ctx → Ctx) : (s.modMe f).faultRecords = s.faultRecords := rfl

/-! setCore changes `cores` alone. -/

@[simp] theorem State.setCore_cur (s : State) (k : Nat) (c : Core) : (s.setCore k c).cur = s.cur := rfl
@[simp] theorem State.setCore_me (s : State) (k : Nat) (c : Core) : (s.setCore k c).me = s.me := rfl
@[simp] theorem State.setCore_others (s : State) (k : Nat) (c : Core) : (s.setCore k c).others = s.others := rfl
@[simp] theorem State.setCore_issue (s : State) (k : Nat) (c : Core) : (s.setCore k c).issue = s.issue := rfl
@[simp] theorem State.setCore_cycle (s : State) (k : Nat) (c : Core) : (s.setCore k c).cycle = s.cycle := rfl
@[simp] theorem State.setCore_nextStep (s : State) (k : Nat) (c : Core) : (s.setCore k c).nextStep = s.nextStep := rfl
@[simp] theorem State.setCore_nextTick (s : State) (k : Nat) (c : Core) : (s.setCore k c).nextTick = s.nextTick := rfl
@[simp] theorem State.setCore_ptsTicks (s : State) (k : Nat) (c : Core) : (s.setCore k c).ptsTicks = s.ptsTicks := rfl
@[simp] theorem State.setCore_inputs (s : State) (k : Nat) (c : Core) : (s.setCore k c).inputs = s.inputs := rfl
@[simp] theorem State.setCore_freeCount (s : State) (k : Nat) (c : Core) : (s.setCore k c).freeCount = s.freeCount := rfl
@[simp] theorem State.setCore_nextId (s : State) (k : Nat) (c : Core) : (s.setCore k c).nextId = s.nextId := rfl
@[simp] theorem State.setCore_cores (s : State) (k : Nat) (c : Core) : (s.setCore k c).cores = Table.set Core.reset s.cores k c := rfl
@[simp] theorem State.setCore_clusters (s : State) (k : Nat) (c : Core) : (s.setCore k c).clusters = s.clusters := rfl
@[simp] theorem State.setCore_mem (s : State) (k : Nat) (c : Core) : (s.setCore k c).mem = s.mem := rfl
@[simp] theorem State.setCore_lines (s : State) (k : Nat) (c : Core) : (s.setCore k c).lines = s.lines := rfl
@[simp] theorem State.setCore_l1 (s : State) (k : Nat) (c : Core) : (s.setCore k c).l1 = s.l1 := rfl
@[simp] theorem State.setCore_rowStamps (s : State) (k : Nat) (c : Core) : (s.setCore k c).rowStamps = s.rowStamps := rfl
@[simp] theorem State.setCore_homeTick (s : State) (k : Nat) (c : Core) : (s.setCore k c).homeTick = s.homeTick := rfl
@[simp] theorem State.setCore_faults (s : State) (k : Nat) (c : Core) : (s.setCore k c).faults = s.faults := rfl
@[simp] theorem State.setCore_corrections (s : State) (k : Nat) (c : Core) : (s.setCore k c).corrections = s.corrections := rfl
@[simp] theorem State.setCore_retired (s : State) (k : Nat) (c : Core) : (s.setCore k c).retired = s.retired := rfl
@[simp] theorem State.setCore_busFaults (s : State) (k : Nat) (c : Core) : (s.setCore k c).busFaults = s.busFaults := rfl
@[simp] theorem State.setCore_errorCounts (s : State) (k : Nat) (c : Core) : (s.setCore k c).errorCounts = s.errorCounts := rfl
@[simp] theorem State.setCore_stkerr (s : State) (k : Nat) (c : Core) : (s.setCore k c).stkerr = s.stkerr := rfl
@[simp] theorem State.setCore_timeStep (s : State) (k : Nat) (c : Core) : (s.setCore k c).timeStep = s.timeStep := rfl
@[simp] theorem State.setCore_detReq (s : State) (k : Nat) (c : Core) : (s.setCore k c).detReq = s.detReq := rfl
@[simp] theorem State.setCore_detAct (s : State) (k : Nat) (c : Core) : (s.setCore k c).detAct = s.detAct := rfl
@[simp] theorem State.setCore_aligned (s : State) (k : Nat) (c : Core) : (s.setCore k c).aligned = s.aligned := rfl
@[simp] theorem State.setCore_logT (s : State) (k : Nat) (c : Core) : (s.setCore k c).logT = s.logT := rfl
@[simp] theorem State.setCore_logTNext (s : State) (k : Nat) (c : Core) : (s.setCore k c).logTNext = s.logTNext := rfl
@[simp] theorem State.setCore_root (s : State) (k : Nat) (c : Core) : (s.setCore k c).root = s.root := rfl
@[simp] theorem State.setCore_markersGood (s : State) (k : Nat) (c : Core) : (s.setCore k c).markersGood = s.markersGood := rfl
@[simp] theorem State.setCore_alignLost (s : State) (k : Nat) (c : Core) : (s.setCore k c).alignLost = s.alignLost := rfl
@[simp] theorem State.setCore_module (s : State) (k : Nat) (c : Core) : (s.setCore k c).module = s.module := rfl
@[simp] theorem State.setCore_tvec (s : State) (k : Nat) (c : Core) : (s.setCore k c).tvec = s.tvec := rfl
@[simp] theorem State.setCore_engines (s : State) (k : Nat) (c : Core) : (s.setCore k c).engines = s.engines := rfl
@[simp] theorem State.setCore_hostLines (s : State) (k : Nat) (c : Core) : (s.setCore k c).hostLines = s.hostLines := rfl
@[simp] theorem State.setCore_l2 (s : State) (k : Nat) (c : Core) : (s.setCore k c).l2 = s.l2 := rfl
@[simp] theorem State.setCore_l2Demoted (s : State) (k : Nat) (c : Core) : (s.setCore k c).l2Demoted = s.l2Demoted := rfl
@[simp] theorem State.setCore_early (s : State) (k : Nat) (c : Core) : (s.setCore k c).early = s.early := rfl
@[simp] theorem State.setCore_late (s : State) (k : Nat) (c : Core) : (s.setCore k c).late = s.late := rfl
@[simp] theorem State.setCore_icache (s : State) (k : Nat) (c : Core) : (s.setCore k c).icache = s.icache := rfl
@[simp] theorem State.setCore_shardBefore (s : State) (k : Nat) (c : Core) : (s.setCore k c).shardBefore = s.shardBefore := rfl
@[simp] theorem State.setCore_scrubNext (s : State) (k : Nat) (c : Core) : (s.setCore k c).scrubNext = s.scrubNext := rfl
@[simp] theorem State.setCore_scrubStart (s : State) (k : Nat) (c : Core) : (s.setCore k c).scrubStart = s.scrubStart := rfl
@[simp] theorem State.setCore_markerLast (s : State) (k : Nat) (c : Core) : (s.setCore k c).markerLast = s.markerLast := rfl
@[simp] theorem State.setCore_lastStep (s : State) (k : Nat) (c : Core) : (s.setCore k c).lastStep = s.lastStep := rfl
@[simp] theorem State.setCore_leftRegions (s : State) (k : Nat) (c : Core) : (s.setCore k c).leftRegions = s.leftRegions := rfl
@[simp] theorem State.setCore_arosel (s : State) (k : Nat) (c : Core) : (s.setCore k c).arosel = s.arosel := rfl
@[simp] theorem State.setCore_aroTable (s : State) (k : Nat) (c : Core) : (s.setCore k c).aroTable = s.aroTable := rfl
@[simp] theorem State.setCore_generation (s : State) (k : Nat) (c : Core) : (s.setCore k c).generation = s.generation := rfl
@[simp] theorem State.setCore_images (s : State) (k : Nat) (c : Core) : (s.setCore k c).images = s.images := rfl
@[simp] theorem State.setCore_jobs (s : State) (k : Nat) (c : Core) : (s.setCore k c).jobs = s.jobs := rfl
@[simp] theorem State.setCore_breaches (s : State) (k : Nat) (c : Core) : (s.setCore k c).breaches = s.breaches := rfl
@[simp] theorem State.setCore_precancels (s : State) (k : Nat) (c : Core) : (s.setCore k c).precancels = s.precancels := rfl
@[simp] theorem State.setCore_requests (s : State) (k : Nat) (c : Core) : (s.setCore k c).requests = s.requests := rfl
@[simp] theorem State.setCore_queues (s : State) (k : Nat) (c : Core) : (s.setCore k c).queues = s.queues := rfl
@[simp] theorem State.setCore_slotRecords (s : State) (k : Nat) (c : Core) : (s.setCore k c).slotRecords = s.slotRecords := rfl
@[simp] theorem State.setCore_slotStatus (s : State) (k : Nat) (c : Core) : (s.setCore k c).slotStatus = s.slotStatus := rfl
@[simp] theorem State.setCore_served (s : State) (k : Nat) (c : Core) : (s.setCore k c).served = s.served := rfl
@[simp] theorem State.setCore_depCounters (s : State) (k : Nat) (c : Core) : (s.setCore k c).depCounters = s.depCounters := rfl
@[simp] theorem State.setCore_releases (s : State) (k : Nat) (c : Core) : (s.setCore k c).releases = s.releases := rfl
@[simp] theorem State.setCore_depReleases (s : State) (k : Nat) (c : Core) : (s.setCore k c).depReleases = s.depReleases := rfl
@[simp] theorem State.setCore_workPts (s : State) (k : Nat) (c : Core) : (s.setCore k c).workPts = s.workPts := rfl
@[simp] theorem State.setCore_tasks (s : State) (k : Nat) (c : Core) : (s.setCore k c).tasks = s.tasks := rfl
@[simp] theorem State.setCore_saved (s : State) (k : Nat) (c : Core) : (s.setCore k c).saved = s.saved := rfl
@[simp] theorem State.setCore_links (s : State) (k : Nat) (c : Core) : (s.setCore k c).links = s.links := rfl
@[simp] theorem State.setCore_mgmt (s : State) (k : Nat) (c : Core) : (s.setCore k c).mgmt = s.mgmt := rfl
@[simp] theorem State.setCore_counted (s : State) (k : Nat) (c : Core) : (s.setCore k c).counted = s.counted := rfl
@[simp] theorem State.setCore_faultRecords (s : State) (k : Nat) (c : Core) : (s.setCore k c).faultRecords = s.faultRecords := rfl

/-! setCluster changes `clusters` alone. -/

@[simp] theorem State.setCluster_cur (s : State) (k : Nat) (c : Cluster) : (s.setCluster k c).cur = s.cur := rfl
@[simp] theorem State.setCluster_me (s : State) (k : Nat) (c : Cluster) : (s.setCluster k c).me = s.me := rfl
@[simp] theorem State.setCluster_others (s : State) (k : Nat) (c : Cluster) : (s.setCluster k c).others = s.others := rfl
@[simp] theorem State.setCluster_issue (s : State) (k : Nat) (c : Cluster) : (s.setCluster k c).issue = s.issue := rfl
@[simp] theorem State.setCluster_cycle (s : State) (k : Nat) (c : Cluster) : (s.setCluster k c).cycle = s.cycle := rfl
@[simp] theorem State.setCluster_nextStep (s : State) (k : Nat) (c : Cluster) : (s.setCluster k c).nextStep = s.nextStep := rfl
@[simp] theorem State.setCluster_nextTick (s : State) (k : Nat) (c : Cluster) : (s.setCluster k c).nextTick = s.nextTick := rfl
@[simp] theorem State.setCluster_ptsTicks (s : State) (k : Nat) (c : Cluster) : (s.setCluster k c).ptsTicks = s.ptsTicks := rfl
@[simp] theorem State.setCluster_inputs (s : State) (k : Nat) (c : Cluster) : (s.setCluster k c).inputs = s.inputs := rfl
@[simp] theorem State.setCluster_freeCount (s : State) (k : Nat) (c : Cluster) : (s.setCluster k c).freeCount = s.freeCount := rfl
@[simp] theorem State.setCluster_nextId (s : State) (k : Nat) (c : Cluster) : (s.setCluster k c).nextId = s.nextId := rfl
@[simp] theorem State.setCluster_cores (s : State) (k : Nat) (c : Cluster) : (s.setCluster k c).cores = s.cores := rfl
@[simp] theorem State.setCluster_clusters (s : State) (k : Nat) (c : Cluster) : (s.setCluster k c).clusters = Table.set Cluster.reset s.clusters k c := rfl
@[simp] theorem State.setCluster_mem (s : State) (k : Nat) (c : Cluster) : (s.setCluster k c).mem = s.mem := rfl
@[simp] theorem State.setCluster_lines (s : State) (k : Nat) (c : Cluster) : (s.setCluster k c).lines = s.lines := rfl
@[simp] theorem State.setCluster_l1 (s : State) (k : Nat) (c : Cluster) : (s.setCluster k c).l1 = s.l1 := rfl
@[simp] theorem State.setCluster_rowStamps (s : State) (k : Nat) (c : Cluster) : (s.setCluster k c).rowStamps = s.rowStamps := rfl
@[simp] theorem State.setCluster_homeTick (s : State) (k : Nat) (c : Cluster) : (s.setCluster k c).homeTick = s.homeTick := rfl
@[simp] theorem State.setCluster_faults (s : State) (k : Nat) (c : Cluster) : (s.setCluster k c).faults = s.faults := rfl
@[simp] theorem State.setCluster_corrections (s : State) (k : Nat) (c : Cluster) : (s.setCluster k c).corrections = s.corrections := rfl
@[simp] theorem State.setCluster_retired (s : State) (k : Nat) (c : Cluster) : (s.setCluster k c).retired = s.retired := rfl
@[simp] theorem State.setCluster_busFaults (s : State) (k : Nat) (c : Cluster) : (s.setCluster k c).busFaults = s.busFaults := rfl
@[simp] theorem State.setCluster_errorCounts (s : State) (k : Nat) (c : Cluster) : (s.setCluster k c).errorCounts = s.errorCounts := rfl
@[simp] theorem State.setCluster_stkerr (s : State) (k : Nat) (c : Cluster) : (s.setCluster k c).stkerr = s.stkerr := rfl
@[simp] theorem State.setCluster_timeStep (s : State) (k : Nat) (c : Cluster) : (s.setCluster k c).timeStep = s.timeStep := rfl
@[simp] theorem State.setCluster_detReq (s : State) (k : Nat) (c : Cluster) : (s.setCluster k c).detReq = s.detReq := rfl
@[simp] theorem State.setCluster_detAct (s : State) (k : Nat) (c : Cluster) : (s.setCluster k c).detAct = s.detAct := rfl
@[simp] theorem State.setCluster_aligned (s : State) (k : Nat) (c : Cluster) : (s.setCluster k c).aligned = s.aligned := rfl
@[simp] theorem State.setCluster_logT (s : State) (k : Nat) (c : Cluster) : (s.setCluster k c).logT = s.logT := rfl
@[simp] theorem State.setCluster_logTNext (s : State) (k : Nat) (c : Cluster) : (s.setCluster k c).logTNext = s.logTNext := rfl
@[simp] theorem State.setCluster_root (s : State) (k : Nat) (c : Cluster) : (s.setCluster k c).root = s.root := rfl
@[simp] theorem State.setCluster_markersGood (s : State) (k : Nat) (c : Cluster) : (s.setCluster k c).markersGood = s.markersGood := rfl
@[simp] theorem State.setCluster_alignLost (s : State) (k : Nat) (c : Cluster) : (s.setCluster k c).alignLost = s.alignLost := rfl
@[simp] theorem State.setCluster_module (s : State) (k : Nat) (c : Cluster) : (s.setCluster k c).module = s.module := rfl
@[simp] theorem State.setCluster_tvec (s : State) (k : Nat) (c : Cluster) : (s.setCluster k c).tvec = s.tvec := rfl
@[simp] theorem State.setCluster_engines (s : State) (k : Nat) (c : Cluster) : (s.setCluster k c).engines = s.engines := rfl
@[simp] theorem State.setCluster_hostLines (s : State) (k : Nat) (c : Cluster) : (s.setCluster k c).hostLines = s.hostLines := rfl
@[simp] theorem State.setCluster_l2 (s : State) (k : Nat) (c : Cluster) : (s.setCluster k c).l2 = s.l2 := rfl
@[simp] theorem State.setCluster_l2Demoted (s : State) (k : Nat) (c : Cluster) : (s.setCluster k c).l2Demoted = s.l2Demoted := rfl
@[simp] theorem State.setCluster_early (s : State) (k : Nat) (c : Cluster) : (s.setCluster k c).early = s.early := rfl
@[simp] theorem State.setCluster_late (s : State) (k : Nat) (c : Cluster) : (s.setCluster k c).late = s.late := rfl
@[simp] theorem State.setCluster_icache (s : State) (k : Nat) (c : Cluster) : (s.setCluster k c).icache = s.icache := rfl
@[simp] theorem State.setCluster_shardBefore (s : State) (k : Nat) (c : Cluster) : (s.setCluster k c).shardBefore = s.shardBefore := rfl
@[simp] theorem State.setCluster_scrubNext (s : State) (k : Nat) (c : Cluster) : (s.setCluster k c).scrubNext = s.scrubNext := rfl
@[simp] theorem State.setCluster_scrubStart (s : State) (k : Nat) (c : Cluster) : (s.setCluster k c).scrubStart = s.scrubStart := rfl
@[simp] theorem State.setCluster_markerLast (s : State) (k : Nat) (c : Cluster) : (s.setCluster k c).markerLast = s.markerLast := rfl
@[simp] theorem State.setCluster_lastStep (s : State) (k : Nat) (c : Cluster) : (s.setCluster k c).lastStep = s.lastStep := rfl
@[simp] theorem State.setCluster_leftRegions (s : State) (k : Nat) (c : Cluster) : (s.setCluster k c).leftRegions = s.leftRegions := rfl
@[simp] theorem State.setCluster_arosel (s : State) (k : Nat) (c : Cluster) : (s.setCluster k c).arosel = s.arosel := rfl
@[simp] theorem State.setCluster_aroTable (s : State) (k : Nat) (c : Cluster) : (s.setCluster k c).aroTable = s.aroTable := rfl
@[simp] theorem State.setCluster_generation (s : State) (k : Nat) (c : Cluster) : (s.setCluster k c).generation = s.generation := rfl
@[simp] theorem State.setCluster_images (s : State) (k : Nat) (c : Cluster) : (s.setCluster k c).images = s.images := rfl
@[simp] theorem State.setCluster_jobs (s : State) (k : Nat) (c : Cluster) : (s.setCluster k c).jobs = s.jobs := rfl
@[simp] theorem State.setCluster_breaches (s : State) (k : Nat) (c : Cluster) : (s.setCluster k c).breaches = s.breaches := rfl
@[simp] theorem State.setCluster_precancels (s : State) (k : Nat) (c : Cluster) : (s.setCluster k c).precancels = s.precancels := rfl
@[simp] theorem State.setCluster_requests (s : State) (k : Nat) (c : Cluster) : (s.setCluster k c).requests = s.requests := rfl
@[simp] theorem State.setCluster_queues (s : State) (k : Nat) (c : Cluster) : (s.setCluster k c).queues = s.queues := rfl
@[simp] theorem State.setCluster_slotRecords (s : State) (k : Nat) (c : Cluster) : (s.setCluster k c).slotRecords = s.slotRecords := rfl
@[simp] theorem State.setCluster_slotStatus (s : State) (k : Nat) (c : Cluster) : (s.setCluster k c).slotStatus = s.slotStatus := rfl
@[simp] theorem State.setCluster_served (s : State) (k : Nat) (c : Cluster) : (s.setCluster k c).served = s.served := rfl
@[simp] theorem State.setCluster_depCounters (s : State) (k : Nat) (c : Cluster) : (s.setCluster k c).depCounters = s.depCounters := rfl
@[simp] theorem State.setCluster_releases (s : State) (k : Nat) (c : Cluster) : (s.setCluster k c).releases = s.releases := rfl
@[simp] theorem State.setCluster_depReleases (s : State) (k : Nat) (c : Cluster) : (s.setCluster k c).depReleases = s.depReleases := rfl
@[simp] theorem State.setCluster_workPts (s : State) (k : Nat) (c : Cluster) : (s.setCluster k c).workPts = s.workPts := rfl
@[simp] theorem State.setCluster_tasks (s : State) (k : Nat) (c : Cluster) : (s.setCluster k c).tasks = s.tasks := rfl
@[simp] theorem State.setCluster_saved (s : State) (k : Nat) (c : Cluster) : (s.setCluster k c).saved = s.saved := rfl
@[simp] theorem State.setCluster_links (s : State) (k : Nat) (c : Cluster) : (s.setCluster k c).links = s.links := rfl
@[simp] theorem State.setCluster_mgmt (s : State) (k : Nat) (c : Cluster) : (s.setCluster k c).mgmt = s.mgmt := rfl
@[simp] theorem State.setCluster_counted (s : State) (k : Nat) (c : Cluster) : (s.setCluster k c).counted = s.counted := rfl
@[simp] theorem State.setCluster_faultRecords (s : State) (k : Nat) (c : Cluster) : (s.setCluster k c).faultRecords = s.faultRecords := rfl

/-! setLine changes `lines` alone. -/

@[simp] theorem State.setLine_cur (s : State) (pa : Nat) (d : LineData) : (s.setLine pa d).cur = s.cur := rfl
@[simp] theorem State.setLine_me (s : State) (pa : Nat) (d : LineData) : (s.setLine pa d).me = s.me := rfl
@[simp] theorem State.setLine_others (s : State) (pa : Nat) (d : LineData) : (s.setLine pa d).others = s.others := rfl
@[simp] theorem State.setLine_issue (s : State) (pa : Nat) (d : LineData) : (s.setLine pa d).issue = s.issue := rfl
@[simp] theorem State.setLine_cycle (s : State) (pa : Nat) (d : LineData) : (s.setLine pa d).cycle = s.cycle := rfl
@[simp] theorem State.setLine_nextStep (s : State) (pa : Nat) (d : LineData) : (s.setLine pa d).nextStep = s.nextStep := rfl
@[simp] theorem State.setLine_nextTick (s : State) (pa : Nat) (d : LineData) : (s.setLine pa d).nextTick = s.nextTick := rfl
@[simp] theorem State.setLine_ptsTicks (s : State) (pa : Nat) (d : LineData) : (s.setLine pa d).ptsTicks = s.ptsTicks := rfl
@[simp] theorem State.setLine_inputs (s : State) (pa : Nat) (d : LineData) : (s.setLine pa d).inputs = s.inputs := rfl
@[simp] theorem State.setLine_freeCount (s : State) (pa : Nat) (d : LineData) : (s.setLine pa d).freeCount = s.freeCount := rfl
@[simp] theorem State.setLine_nextId (s : State) (pa : Nat) (d : LineData) : (s.setLine pa d).nextId = s.nextId := rfl
@[simp] theorem State.setLine_cores (s : State) (pa : Nat) (d : LineData) : (s.setLine pa d).cores = s.cores := rfl
@[simp] theorem State.setLine_clusters (s : State) (pa : Nat) (d : LineData) : (s.setLine pa d).clusters = s.clusters := rfl
@[simp] theorem State.setLine_mem (s : State) (pa : Nat) (d : LineData) : (s.setLine pa d).mem = s.mem := rfl
@[simp] theorem State.setLine_lines (s : State) (pa : Nat) (d : LineData) : (s.setLine pa d).lines = Table.set LineData.clear s.lines (pa / 64) d := rfl
@[simp] theorem State.setLine_l1 (s : State) (pa : Nat) (d : LineData) : (s.setLine pa d).l1 = s.l1 := rfl
@[simp] theorem State.setLine_rowStamps (s : State) (pa : Nat) (d : LineData) : (s.setLine pa d).rowStamps = s.rowStamps := rfl
@[simp] theorem State.setLine_homeTick (s : State) (pa : Nat) (d : LineData) : (s.setLine pa d).homeTick = s.homeTick := rfl
@[simp] theorem State.setLine_faults (s : State) (pa : Nat) (d : LineData) : (s.setLine pa d).faults = s.faults := rfl
@[simp] theorem State.setLine_corrections (s : State) (pa : Nat) (d : LineData) : (s.setLine pa d).corrections = s.corrections := rfl
@[simp] theorem State.setLine_retired (s : State) (pa : Nat) (d : LineData) : (s.setLine pa d).retired = s.retired := rfl
@[simp] theorem State.setLine_busFaults (s : State) (pa : Nat) (d : LineData) : (s.setLine pa d).busFaults = s.busFaults := rfl
@[simp] theorem State.setLine_errorCounts (s : State) (pa : Nat) (d : LineData) : (s.setLine pa d).errorCounts = s.errorCounts := rfl
@[simp] theorem State.setLine_stkerr (s : State) (pa : Nat) (d : LineData) : (s.setLine pa d).stkerr = s.stkerr := rfl
@[simp] theorem State.setLine_timeStep (s : State) (pa : Nat) (d : LineData) : (s.setLine pa d).timeStep = s.timeStep := rfl
@[simp] theorem State.setLine_detReq (s : State) (pa : Nat) (d : LineData) : (s.setLine pa d).detReq = s.detReq := rfl
@[simp] theorem State.setLine_detAct (s : State) (pa : Nat) (d : LineData) : (s.setLine pa d).detAct = s.detAct := rfl
@[simp] theorem State.setLine_aligned (s : State) (pa : Nat) (d : LineData) : (s.setLine pa d).aligned = s.aligned := rfl
@[simp] theorem State.setLine_logT (s : State) (pa : Nat) (d : LineData) : (s.setLine pa d).logT = s.logT := rfl
@[simp] theorem State.setLine_logTNext (s : State) (pa : Nat) (d : LineData) : (s.setLine pa d).logTNext = s.logTNext := rfl
@[simp] theorem State.setLine_root (s : State) (pa : Nat) (d : LineData) : (s.setLine pa d).root = s.root := rfl
@[simp] theorem State.setLine_markersGood (s : State) (pa : Nat) (d : LineData) : (s.setLine pa d).markersGood = s.markersGood := rfl
@[simp] theorem State.setLine_alignLost (s : State) (pa : Nat) (d : LineData) : (s.setLine pa d).alignLost = s.alignLost := rfl
@[simp] theorem State.setLine_module (s : State) (pa : Nat) (d : LineData) : (s.setLine pa d).module = s.module := rfl
@[simp] theorem State.setLine_tvec (s : State) (pa : Nat) (d : LineData) : (s.setLine pa d).tvec = s.tvec := rfl
@[simp] theorem State.setLine_engines (s : State) (pa : Nat) (d : LineData) : (s.setLine pa d).engines = s.engines := rfl
@[simp] theorem State.setLine_hostLines (s : State) (pa : Nat) (d : LineData) : (s.setLine pa d).hostLines = s.hostLines := rfl
@[simp] theorem State.setLine_l2 (s : State) (pa : Nat) (d : LineData) : (s.setLine pa d).l2 = s.l2 := rfl
@[simp] theorem State.setLine_l2Demoted (s : State) (pa : Nat) (d : LineData) : (s.setLine pa d).l2Demoted = s.l2Demoted := rfl
@[simp] theorem State.setLine_early (s : State) (pa : Nat) (d : LineData) : (s.setLine pa d).early = s.early := rfl
@[simp] theorem State.setLine_late (s : State) (pa : Nat) (d : LineData) : (s.setLine pa d).late = s.late := rfl
@[simp] theorem State.setLine_icache (s : State) (pa : Nat) (d : LineData) : (s.setLine pa d).icache = s.icache := rfl
@[simp] theorem State.setLine_shardBefore (s : State) (pa : Nat) (d : LineData) : (s.setLine pa d).shardBefore = s.shardBefore := rfl
@[simp] theorem State.setLine_scrubNext (s : State) (pa : Nat) (d : LineData) : (s.setLine pa d).scrubNext = s.scrubNext := rfl
@[simp] theorem State.setLine_scrubStart (s : State) (pa : Nat) (d : LineData) : (s.setLine pa d).scrubStart = s.scrubStart := rfl
@[simp] theorem State.setLine_markerLast (s : State) (pa : Nat) (d : LineData) : (s.setLine pa d).markerLast = s.markerLast := rfl
@[simp] theorem State.setLine_lastStep (s : State) (pa : Nat) (d : LineData) : (s.setLine pa d).lastStep = s.lastStep := rfl
@[simp] theorem State.setLine_leftRegions (s : State) (pa : Nat) (d : LineData) : (s.setLine pa d).leftRegions = s.leftRegions := rfl
@[simp] theorem State.setLine_arosel (s : State) (pa : Nat) (d : LineData) : (s.setLine pa d).arosel = s.arosel := rfl
@[simp] theorem State.setLine_aroTable (s : State) (pa : Nat) (d : LineData) : (s.setLine pa d).aroTable = s.aroTable := rfl
@[simp] theorem State.setLine_generation (s : State) (pa : Nat) (d : LineData) : (s.setLine pa d).generation = s.generation := rfl
@[simp] theorem State.setLine_images (s : State) (pa : Nat) (d : LineData) : (s.setLine pa d).images = s.images := rfl
@[simp] theorem State.setLine_jobs (s : State) (pa : Nat) (d : LineData) : (s.setLine pa d).jobs = s.jobs := rfl
@[simp] theorem State.setLine_breaches (s : State) (pa : Nat) (d : LineData) : (s.setLine pa d).breaches = s.breaches := rfl
@[simp] theorem State.setLine_precancels (s : State) (pa : Nat) (d : LineData) : (s.setLine pa d).precancels = s.precancels := rfl
@[simp] theorem State.setLine_requests (s : State) (pa : Nat) (d : LineData) : (s.setLine pa d).requests = s.requests := rfl
@[simp] theorem State.setLine_queues (s : State) (pa : Nat) (d : LineData) : (s.setLine pa d).queues = s.queues := rfl
@[simp] theorem State.setLine_slotRecords (s : State) (pa : Nat) (d : LineData) : (s.setLine pa d).slotRecords = s.slotRecords := rfl
@[simp] theorem State.setLine_slotStatus (s : State) (pa : Nat) (d : LineData) : (s.setLine pa d).slotStatus = s.slotStatus := rfl
@[simp] theorem State.setLine_served (s : State) (pa : Nat) (d : LineData) : (s.setLine pa d).served = s.served := rfl
@[simp] theorem State.setLine_depCounters (s : State) (pa : Nat) (d : LineData) : (s.setLine pa d).depCounters = s.depCounters := rfl
@[simp] theorem State.setLine_releases (s : State) (pa : Nat) (d : LineData) : (s.setLine pa d).releases = s.releases := rfl
@[simp] theorem State.setLine_depReleases (s : State) (pa : Nat) (d : LineData) : (s.setLine pa d).depReleases = s.depReleases := rfl
@[simp] theorem State.setLine_workPts (s : State) (pa : Nat) (d : LineData) : (s.setLine pa d).workPts = s.workPts := rfl
@[simp] theorem State.setLine_tasks (s : State) (pa : Nat) (d : LineData) : (s.setLine pa d).tasks = s.tasks := rfl
@[simp] theorem State.setLine_saved (s : State) (pa : Nat) (d : LineData) : (s.setLine pa d).saved = s.saved := rfl
@[simp] theorem State.setLine_links (s : State) (pa : Nat) (d : LineData) : (s.setLine pa d).links = s.links := rfl
@[simp] theorem State.setLine_mgmt (s : State) (pa : Nat) (d : LineData) : (s.setLine pa d).mgmt = s.mgmt := rfl
@[simp] theorem State.setLine_counted (s : State) (pa : Nat) (d : LineData) : (s.setLine pa d).counted = s.counted := rfl
@[simp] theorem State.setLine_faultRecords (s : State) (pa : Nat) (d : LineData) : (s.setLine pa d).faultRecords = s.faultRecords := rfl

/-! drawn changes `freeCount` alone. -/

@[simp] theorem State.drawn_cur (s : State) : (s.drawn).cur = s.cur := rfl
@[simp] theorem State.drawn_me (s : State) : (s.drawn).me = s.me := rfl
@[simp] theorem State.drawn_others (s : State) : (s.drawn).others = s.others := rfl
@[simp] theorem State.drawn_issue (s : State) : (s.drawn).issue = s.issue := rfl
@[simp] theorem State.drawn_cycle (s : State) : (s.drawn).cycle = s.cycle := rfl
@[simp] theorem State.drawn_nextStep (s : State) : (s.drawn).nextStep = s.nextStep := rfl
@[simp] theorem State.drawn_nextTick (s : State) : (s.drawn).nextTick = s.nextTick := rfl
@[simp] theorem State.drawn_ptsTicks (s : State) : (s.drawn).ptsTicks = s.ptsTicks := rfl
@[simp] theorem State.drawn_inputs (s : State) : (s.drawn).inputs = s.inputs := rfl
@[simp] theorem State.drawn_freeCount (s : State) : (s.drawn).freeCount = s.freeCount + 1 := rfl
@[simp] theorem State.drawn_nextId (s : State) : (s.drawn).nextId = s.nextId := rfl
@[simp] theorem State.drawn_cores (s : State) : (s.drawn).cores = s.cores := rfl
@[simp] theorem State.drawn_clusters (s : State) : (s.drawn).clusters = s.clusters := rfl
@[simp] theorem State.drawn_mem (s : State) : (s.drawn).mem = s.mem := rfl
@[simp] theorem State.drawn_lines (s : State) : (s.drawn).lines = s.lines := rfl
@[simp] theorem State.drawn_l1 (s : State) : (s.drawn).l1 = s.l1 := rfl
@[simp] theorem State.drawn_rowStamps (s : State) : (s.drawn).rowStamps = s.rowStamps := rfl
@[simp] theorem State.drawn_homeTick (s : State) : (s.drawn).homeTick = s.homeTick := rfl
@[simp] theorem State.drawn_faults (s : State) : (s.drawn).faults = s.faults := rfl
@[simp] theorem State.drawn_corrections (s : State) : (s.drawn).corrections = s.corrections := rfl
@[simp] theorem State.drawn_retired (s : State) : (s.drawn).retired = s.retired := rfl
@[simp] theorem State.drawn_busFaults (s : State) : (s.drawn).busFaults = s.busFaults := rfl
@[simp] theorem State.drawn_errorCounts (s : State) : (s.drawn).errorCounts = s.errorCounts := rfl
@[simp] theorem State.drawn_stkerr (s : State) : (s.drawn).stkerr = s.stkerr := rfl
@[simp] theorem State.drawn_timeStep (s : State) : (s.drawn).timeStep = s.timeStep := rfl
@[simp] theorem State.drawn_detReq (s : State) : (s.drawn).detReq = s.detReq := rfl
@[simp] theorem State.drawn_detAct (s : State) : (s.drawn).detAct = s.detAct := rfl
@[simp] theorem State.drawn_aligned (s : State) : (s.drawn).aligned = s.aligned := rfl
@[simp] theorem State.drawn_logT (s : State) : (s.drawn).logT = s.logT := rfl
@[simp] theorem State.drawn_logTNext (s : State) : (s.drawn).logTNext = s.logTNext := rfl
@[simp] theorem State.drawn_root (s : State) : (s.drawn).root = s.root := rfl
@[simp] theorem State.drawn_markersGood (s : State) : (s.drawn).markersGood = s.markersGood := rfl
@[simp] theorem State.drawn_alignLost (s : State) : (s.drawn).alignLost = s.alignLost := rfl
@[simp] theorem State.drawn_module (s : State) : (s.drawn).module = s.module := rfl
@[simp] theorem State.drawn_tvec (s : State) : (s.drawn).tvec = s.tvec := rfl
@[simp] theorem State.drawn_engines (s : State) : (s.drawn).engines = s.engines := rfl
@[simp] theorem State.drawn_hostLines (s : State) : (s.drawn).hostLines = s.hostLines := rfl
@[simp] theorem State.drawn_l2 (s : State) : (s.drawn).l2 = s.l2 := rfl
@[simp] theorem State.drawn_l2Demoted (s : State) : (s.drawn).l2Demoted = s.l2Demoted := rfl
@[simp] theorem State.drawn_early (s : State) : (s.drawn).early = s.early := rfl
@[simp] theorem State.drawn_late (s : State) : (s.drawn).late = s.late := rfl
@[simp] theorem State.drawn_icache (s : State) : (s.drawn).icache = s.icache := rfl
@[simp] theorem State.drawn_shardBefore (s : State) : (s.drawn).shardBefore = s.shardBefore := rfl
@[simp] theorem State.drawn_scrubNext (s : State) : (s.drawn).scrubNext = s.scrubNext := rfl
@[simp] theorem State.drawn_scrubStart (s : State) : (s.drawn).scrubStart = s.scrubStart := rfl
@[simp] theorem State.drawn_markerLast (s : State) : (s.drawn).markerLast = s.markerLast := rfl
@[simp] theorem State.drawn_lastStep (s : State) : (s.drawn).lastStep = s.lastStep := rfl
@[simp] theorem State.drawn_leftRegions (s : State) : (s.drawn).leftRegions = s.leftRegions := rfl
@[simp] theorem State.drawn_arosel (s : State) : (s.drawn).arosel = s.arosel := rfl
@[simp] theorem State.drawn_aroTable (s : State) : (s.drawn).aroTable = s.aroTable := rfl
@[simp] theorem State.drawn_generation (s : State) : (s.drawn).generation = s.generation := rfl
@[simp] theorem State.drawn_images (s : State) : (s.drawn).images = s.images := rfl
@[simp] theorem State.drawn_jobs (s : State) : (s.drawn).jobs = s.jobs := rfl
@[simp] theorem State.drawn_breaches (s : State) : (s.drawn).breaches = s.breaches := rfl
@[simp] theorem State.drawn_precancels (s : State) : (s.drawn).precancels = s.precancels := rfl
@[simp] theorem State.drawn_requests (s : State) : (s.drawn).requests = s.requests := rfl
@[simp] theorem State.drawn_queues (s : State) : (s.drawn).queues = s.queues := rfl
@[simp] theorem State.drawn_slotRecords (s : State) : (s.drawn).slotRecords = s.slotRecords := rfl
@[simp] theorem State.drawn_slotStatus (s : State) : (s.drawn).slotStatus = s.slotStatus := rfl
@[simp] theorem State.drawn_served (s : State) : (s.drawn).served = s.served := rfl
@[simp] theorem State.drawn_depCounters (s : State) : (s.drawn).depCounters = s.depCounters := rfl
@[simp] theorem State.drawn_releases (s : State) : (s.drawn).releases = s.releases := rfl
@[simp] theorem State.drawn_depReleases (s : State) : (s.drawn).depReleases = s.depReleases := rfl
@[simp] theorem State.drawn_workPts (s : State) : (s.drawn).workPts = s.workPts := rfl
@[simp] theorem State.drawn_tasks (s : State) : (s.drawn).tasks = s.tasks := rfl
@[simp] theorem State.drawn_saved (s : State) : (s.drawn).saved = s.saved := rfl
@[simp] theorem State.drawn_links (s : State) : (s.drawn).links = s.links := rfl
@[simp] theorem State.drawn_mgmt (s : State) : (s.drawn).mgmt = s.mgmt := rfl
@[simp] theorem State.drawn_counted (s : State) : (s.drawn).counted = s.counted := rfl
@[simp] theorem State.drawn_faultRecords (s : State) : (s.drawn).faultRecords = s.faultRecords := rfl

/-! result changes `me` alone. -/

@[simp] theorem State.result_cur (s : State) (slot lat : Nat) (w : RegWrite) : (s.result slot lat w).cur = s.cur := rfl
@[simp] theorem State.result_others (s : State) (slot lat : Nat) (w : RegWrite) : (s.result slot lat w).others = s.others := rfl
@[simp] theorem State.result_issue (s : State) (slot lat : Nat) (w : RegWrite) : (s.result slot lat w).issue = s.issue := rfl
@[simp] theorem State.result_cycle (s : State) (slot lat : Nat) (w : RegWrite) : (s.result slot lat w).cycle = s.cycle := rfl
@[simp] theorem State.result_nextStep (s : State) (slot lat : Nat) (w : RegWrite) : (s.result slot lat w).nextStep = s.nextStep := rfl
@[simp] theorem State.result_nextTick (s : State) (slot lat : Nat) (w : RegWrite) : (s.result slot lat w).nextTick = s.nextTick := rfl
@[simp] theorem State.result_ptsTicks (s : State) (slot lat : Nat) (w : RegWrite) : (s.result slot lat w).ptsTicks = s.ptsTicks := rfl
@[simp] theorem State.result_inputs (s : State) (slot lat : Nat) (w : RegWrite) : (s.result slot lat w).inputs = s.inputs := rfl
@[simp] theorem State.result_freeCount (s : State) (slot lat : Nat) (w : RegWrite) : (s.result slot lat w).freeCount = s.freeCount := rfl
@[simp] theorem State.result_nextId (s : State) (slot lat : Nat) (w : RegWrite) : (s.result slot lat w).nextId = s.nextId := rfl
@[simp] theorem State.result_cores (s : State) (slot lat : Nat) (w : RegWrite) : (s.result slot lat w).cores = s.cores := rfl
@[simp] theorem State.result_clusters (s : State) (slot lat : Nat) (w : RegWrite) : (s.result slot lat w).clusters = s.clusters := rfl
@[simp] theorem State.result_mem (s : State) (slot lat : Nat) (w : RegWrite) : (s.result slot lat w).mem = s.mem := rfl
@[simp] theorem State.result_lines (s : State) (slot lat : Nat) (w : RegWrite) : (s.result slot lat w).lines = s.lines := rfl
@[simp] theorem State.result_l1 (s : State) (slot lat : Nat) (w : RegWrite) : (s.result slot lat w).l1 = s.l1 := rfl
@[simp] theorem State.result_rowStamps (s : State) (slot lat : Nat) (w : RegWrite) : (s.result slot lat w).rowStamps = s.rowStamps := rfl
@[simp] theorem State.result_homeTick (s : State) (slot lat : Nat) (w : RegWrite) : (s.result slot lat w).homeTick = s.homeTick := rfl
@[simp] theorem State.result_faults (s : State) (slot lat : Nat) (w : RegWrite) : (s.result slot lat w).faults = s.faults := rfl
@[simp] theorem State.result_corrections (s : State) (slot lat : Nat) (w : RegWrite) : (s.result slot lat w).corrections = s.corrections := rfl
@[simp] theorem State.result_retired (s : State) (slot lat : Nat) (w : RegWrite) : (s.result slot lat w).retired = s.retired := rfl
@[simp] theorem State.result_busFaults (s : State) (slot lat : Nat) (w : RegWrite) : (s.result slot lat w).busFaults = s.busFaults := rfl
@[simp] theorem State.result_errorCounts (s : State) (slot lat : Nat) (w : RegWrite) : (s.result slot lat w).errorCounts = s.errorCounts := rfl
@[simp] theorem State.result_stkerr (s : State) (slot lat : Nat) (w : RegWrite) : (s.result slot lat w).stkerr = s.stkerr := rfl
@[simp] theorem State.result_timeStep (s : State) (slot lat : Nat) (w : RegWrite) : (s.result slot lat w).timeStep = s.timeStep := rfl
@[simp] theorem State.result_detReq (s : State) (slot lat : Nat) (w : RegWrite) : (s.result slot lat w).detReq = s.detReq := rfl
@[simp] theorem State.result_detAct (s : State) (slot lat : Nat) (w : RegWrite) : (s.result slot lat w).detAct = s.detAct := rfl
@[simp] theorem State.result_aligned (s : State) (slot lat : Nat) (w : RegWrite) : (s.result slot lat w).aligned = s.aligned := rfl
@[simp] theorem State.result_logT (s : State) (slot lat : Nat) (w : RegWrite) : (s.result slot lat w).logT = s.logT := rfl
@[simp] theorem State.result_logTNext (s : State) (slot lat : Nat) (w : RegWrite) : (s.result slot lat w).logTNext = s.logTNext := rfl
@[simp] theorem State.result_root (s : State) (slot lat : Nat) (w : RegWrite) : (s.result slot lat w).root = s.root := rfl
@[simp] theorem State.result_markersGood (s : State) (slot lat : Nat) (w : RegWrite) : (s.result slot lat w).markersGood = s.markersGood := rfl
@[simp] theorem State.result_alignLost (s : State) (slot lat : Nat) (w : RegWrite) : (s.result slot lat w).alignLost = s.alignLost := rfl
@[simp] theorem State.result_module (s : State) (slot lat : Nat) (w : RegWrite) : (s.result slot lat w).module = s.module := rfl
@[simp] theorem State.result_tvec (s : State) (slot lat : Nat) (w : RegWrite) : (s.result slot lat w).tvec = s.tvec := rfl
@[simp] theorem State.result_engines (s : State) (slot lat : Nat) (w : RegWrite) : (s.result slot lat w).engines = s.engines := rfl
@[simp] theorem State.result_hostLines (s : State) (slot lat : Nat) (w : RegWrite) : (s.result slot lat w).hostLines = s.hostLines := rfl
@[simp] theorem State.result_l2 (s : State) (slot lat : Nat) (w : RegWrite) : (s.result slot lat w).l2 = s.l2 := rfl
@[simp] theorem State.result_l2Demoted (s : State) (slot lat : Nat) (w : RegWrite) : (s.result slot lat w).l2Demoted = s.l2Demoted := rfl
@[simp] theorem State.result_early (s : State) (slot lat : Nat) (w : RegWrite) : (s.result slot lat w).early = s.early := rfl
@[simp] theorem State.result_late (s : State) (slot lat : Nat) (w : RegWrite) : (s.result slot lat w).late = s.late := rfl
@[simp] theorem State.result_icache (s : State) (slot lat : Nat) (w : RegWrite) : (s.result slot lat w).icache = s.icache := rfl
@[simp] theorem State.result_shardBefore (s : State) (slot lat : Nat) (w : RegWrite) : (s.result slot lat w).shardBefore = s.shardBefore := rfl
@[simp] theorem State.result_scrubNext (s : State) (slot lat : Nat) (w : RegWrite) : (s.result slot lat w).scrubNext = s.scrubNext := rfl
@[simp] theorem State.result_scrubStart (s : State) (slot lat : Nat) (w : RegWrite) : (s.result slot lat w).scrubStart = s.scrubStart := rfl
@[simp] theorem State.result_markerLast (s : State) (slot lat : Nat) (w : RegWrite) : (s.result slot lat w).markerLast = s.markerLast := rfl
@[simp] theorem State.result_lastStep (s : State) (slot lat : Nat) (w : RegWrite) : (s.result slot lat w).lastStep = s.lastStep := rfl
@[simp] theorem State.result_leftRegions (s : State) (slot lat : Nat) (w : RegWrite) : (s.result slot lat w).leftRegions = s.leftRegions := rfl
@[simp] theorem State.result_arosel (s : State) (slot lat : Nat) (w : RegWrite) : (s.result slot lat w).arosel = s.arosel := rfl
@[simp] theorem State.result_aroTable (s : State) (slot lat : Nat) (w : RegWrite) : (s.result slot lat w).aroTable = s.aroTable := rfl
@[simp] theorem State.result_generation (s : State) (slot lat : Nat) (w : RegWrite) : (s.result slot lat w).generation = s.generation := rfl
@[simp] theorem State.result_images (s : State) (slot lat : Nat) (w : RegWrite) : (s.result slot lat w).images = s.images := rfl
@[simp] theorem State.result_jobs (s : State) (slot lat : Nat) (w : RegWrite) : (s.result slot lat w).jobs = s.jobs := rfl
@[simp] theorem State.result_breaches (s : State) (slot lat : Nat) (w : RegWrite) : (s.result slot lat w).breaches = s.breaches := rfl
@[simp] theorem State.result_precancels (s : State) (slot lat : Nat) (w : RegWrite) : (s.result slot lat w).precancels = s.precancels := rfl
@[simp] theorem State.result_requests (s : State) (slot lat : Nat) (w : RegWrite) : (s.result slot lat w).requests = s.requests := rfl
@[simp] theorem State.result_queues (s : State) (slot lat : Nat) (w : RegWrite) : (s.result slot lat w).queues = s.queues := rfl
@[simp] theorem State.result_slotRecords (s : State) (slot lat : Nat) (w : RegWrite) : (s.result slot lat w).slotRecords = s.slotRecords := rfl
@[simp] theorem State.result_slotStatus (s : State) (slot lat : Nat) (w : RegWrite) : (s.result slot lat w).slotStatus = s.slotStatus := rfl
@[simp] theorem State.result_served (s : State) (slot lat : Nat) (w : RegWrite) : (s.result slot lat w).served = s.served := rfl
@[simp] theorem State.result_depCounters (s : State) (slot lat : Nat) (w : RegWrite) : (s.result slot lat w).depCounters = s.depCounters := rfl
@[simp] theorem State.result_releases (s : State) (slot lat : Nat) (w : RegWrite) : (s.result slot lat w).releases = s.releases := rfl
@[simp] theorem State.result_depReleases (s : State) (slot lat : Nat) (w : RegWrite) : (s.result slot lat w).depReleases = s.depReleases := rfl
@[simp] theorem State.result_workPts (s : State) (slot lat : Nat) (w : RegWrite) : (s.result slot lat w).workPts = s.workPts := rfl
@[simp] theorem State.result_tasks (s : State) (slot lat : Nat) (w : RegWrite) : (s.result slot lat w).tasks = s.tasks := rfl
@[simp] theorem State.result_saved (s : State) (slot lat : Nat) (w : RegWrite) : (s.result slot lat w).saved = s.saved := rfl
@[simp] theorem State.result_links (s : State) (slot lat : Nat) (w : RegWrite) : (s.result slot lat w).links = s.links := rfl
@[simp] theorem State.result_mgmt (s : State) (slot lat : Nat) (w : RegWrite) : (s.result slot lat w).mgmt = s.mgmt := rfl
@[simp] theorem State.result_counted (s : State) (slot lat : Nat) (w : RegWrite) : (s.result slot lat w).counted = s.counted := rfl
@[simp] theorem State.result_faultRecords (s : State) (slot lat : Nat) (w : RegWrite) : (s.result slot lat w).faultRecords = s.faultRecords := rfl

/-! occupy changes `cores` alone. -/

@[simp] theorem State.occupy_cur (s : State) (slot n : Nat) : (s.occupy slot n).cur = s.cur := rfl
@[simp] theorem State.occupy_me (s : State) (slot n : Nat) : (s.occupy slot n).me = s.me := rfl
@[simp] theorem State.occupy_others (s : State) (slot n : Nat) : (s.occupy slot n).others = s.others := rfl
@[simp] theorem State.occupy_issue (s : State) (slot n : Nat) : (s.occupy slot n).issue = s.issue := rfl
@[simp] theorem State.occupy_cycle (s : State) (slot n : Nat) : (s.occupy slot n).cycle = s.cycle := rfl
@[simp] theorem State.occupy_nextStep (s : State) (slot n : Nat) : (s.occupy slot n).nextStep = s.nextStep := rfl
@[simp] theorem State.occupy_nextTick (s : State) (slot n : Nat) : (s.occupy slot n).nextTick = s.nextTick := rfl
@[simp] theorem State.occupy_ptsTicks (s : State) (slot n : Nat) : (s.occupy slot n).ptsTicks = s.ptsTicks := rfl
@[simp] theorem State.occupy_inputs (s : State) (slot n : Nat) : (s.occupy slot n).inputs = s.inputs := rfl
@[simp] theorem State.occupy_freeCount (s : State) (slot n : Nat) : (s.occupy slot n).freeCount = s.freeCount := rfl
@[simp] theorem State.occupy_nextId (s : State) (slot n : Nat) : (s.occupy slot n).nextId = s.nextId := rfl
@[simp] theorem State.occupy_clusters (s : State) (slot n : Nat) : (s.occupy slot n).clusters = s.clusters := rfl
@[simp] theorem State.occupy_mem (s : State) (slot n : Nat) : (s.occupy slot n).mem = s.mem := rfl
@[simp] theorem State.occupy_lines (s : State) (slot n : Nat) : (s.occupy slot n).lines = s.lines := rfl
@[simp] theorem State.occupy_l1 (s : State) (slot n : Nat) : (s.occupy slot n).l1 = s.l1 := rfl
@[simp] theorem State.occupy_rowStamps (s : State) (slot n : Nat) : (s.occupy slot n).rowStamps = s.rowStamps := rfl
@[simp] theorem State.occupy_homeTick (s : State) (slot n : Nat) : (s.occupy slot n).homeTick = s.homeTick := rfl
@[simp] theorem State.occupy_faults (s : State) (slot n : Nat) : (s.occupy slot n).faults = s.faults := rfl
@[simp] theorem State.occupy_corrections (s : State) (slot n : Nat) : (s.occupy slot n).corrections = s.corrections := rfl
@[simp] theorem State.occupy_retired (s : State) (slot n : Nat) : (s.occupy slot n).retired = s.retired := rfl
@[simp] theorem State.occupy_busFaults (s : State) (slot n : Nat) : (s.occupy slot n).busFaults = s.busFaults := rfl
@[simp] theorem State.occupy_errorCounts (s : State) (slot n : Nat) : (s.occupy slot n).errorCounts = s.errorCounts := rfl
@[simp] theorem State.occupy_stkerr (s : State) (slot n : Nat) : (s.occupy slot n).stkerr = s.stkerr := rfl
@[simp] theorem State.occupy_timeStep (s : State) (slot n : Nat) : (s.occupy slot n).timeStep = s.timeStep := rfl
@[simp] theorem State.occupy_detReq (s : State) (slot n : Nat) : (s.occupy slot n).detReq = s.detReq := rfl
@[simp] theorem State.occupy_detAct (s : State) (slot n : Nat) : (s.occupy slot n).detAct = s.detAct := rfl
@[simp] theorem State.occupy_aligned (s : State) (slot n : Nat) : (s.occupy slot n).aligned = s.aligned := rfl
@[simp] theorem State.occupy_logT (s : State) (slot n : Nat) : (s.occupy slot n).logT = s.logT := rfl
@[simp] theorem State.occupy_logTNext (s : State) (slot n : Nat) : (s.occupy slot n).logTNext = s.logTNext := rfl
@[simp] theorem State.occupy_root (s : State) (slot n : Nat) : (s.occupy slot n).root = s.root := rfl
@[simp] theorem State.occupy_markersGood (s : State) (slot n : Nat) : (s.occupy slot n).markersGood = s.markersGood := rfl
@[simp] theorem State.occupy_alignLost (s : State) (slot n : Nat) : (s.occupy slot n).alignLost = s.alignLost := rfl
@[simp] theorem State.occupy_module (s : State) (slot n : Nat) : (s.occupy slot n).module = s.module := rfl
@[simp] theorem State.occupy_tvec (s : State) (slot n : Nat) : (s.occupy slot n).tvec = s.tvec := rfl
@[simp] theorem State.occupy_engines (s : State) (slot n : Nat) : (s.occupy slot n).engines = s.engines := rfl
@[simp] theorem State.occupy_hostLines (s : State) (slot n : Nat) : (s.occupy slot n).hostLines = s.hostLines := rfl
@[simp] theorem State.occupy_l2 (s : State) (slot n : Nat) : (s.occupy slot n).l2 = s.l2 := rfl
@[simp] theorem State.occupy_l2Demoted (s : State) (slot n : Nat) : (s.occupy slot n).l2Demoted = s.l2Demoted := rfl
@[simp] theorem State.occupy_early (s : State) (slot n : Nat) : (s.occupy slot n).early = s.early := rfl
@[simp] theorem State.occupy_late (s : State) (slot n : Nat) : (s.occupy slot n).late = s.late := rfl
@[simp] theorem State.occupy_icache (s : State) (slot n : Nat) : (s.occupy slot n).icache = s.icache := rfl
@[simp] theorem State.occupy_shardBefore (s : State) (slot n : Nat) : (s.occupy slot n).shardBefore = s.shardBefore := rfl
@[simp] theorem State.occupy_scrubNext (s : State) (slot n : Nat) : (s.occupy slot n).scrubNext = s.scrubNext := rfl
@[simp] theorem State.occupy_scrubStart (s : State) (slot n : Nat) : (s.occupy slot n).scrubStart = s.scrubStart := rfl
@[simp] theorem State.occupy_markerLast (s : State) (slot n : Nat) : (s.occupy slot n).markerLast = s.markerLast := rfl
@[simp] theorem State.occupy_lastStep (s : State) (slot n : Nat) : (s.occupy slot n).lastStep = s.lastStep := rfl
@[simp] theorem State.occupy_leftRegions (s : State) (slot n : Nat) : (s.occupy slot n).leftRegions = s.leftRegions := rfl
@[simp] theorem State.occupy_arosel (s : State) (slot n : Nat) : (s.occupy slot n).arosel = s.arosel := rfl
@[simp] theorem State.occupy_aroTable (s : State) (slot n : Nat) : (s.occupy slot n).aroTable = s.aroTable := rfl
@[simp] theorem State.occupy_generation (s : State) (slot n : Nat) : (s.occupy slot n).generation = s.generation := rfl
@[simp] theorem State.occupy_images (s : State) (slot n : Nat) : (s.occupy slot n).images = s.images := rfl
@[simp] theorem State.occupy_jobs (s : State) (slot n : Nat) : (s.occupy slot n).jobs = s.jobs := rfl
@[simp] theorem State.occupy_breaches (s : State) (slot n : Nat) : (s.occupy slot n).breaches = s.breaches := rfl
@[simp] theorem State.occupy_precancels (s : State) (slot n : Nat) : (s.occupy slot n).precancels = s.precancels := rfl
@[simp] theorem State.occupy_requests (s : State) (slot n : Nat) : (s.occupy slot n).requests = s.requests := rfl
@[simp] theorem State.occupy_queues (s : State) (slot n : Nat) : (s.occupy slot n).queues = s.queues := rfl
@[simp] theorem State.occupy_slotRecords (s : State) (slot n : Nat) : (s.occupy slot n).slotRecords = s.slotRecords := rfl
@[simp] theorem State.occupy_slotStatus (s : State) (slot n : Nat) : (s.occupy slot n).slotStatus = s.slotStatus := rfl
@[simp] theorem State.occupy_served (s : State) (slot n : Nat) : (s.occupy slot n).served = s.served := rfl
@[simp] theorem State.occupy_depCounters (s : State) (slot n : Nat) : (s.occupy slot n).depCounters = s.depCounters := rfl
@[simp] theorem State.occupy_releases (s : State) (slot n : Nat) : (s.occupy slot n).releases = s.releases := rfl
@[simp] theorem State.occupy_depReleases (s : State) (slot n : Nat) : (s.occupy slot n).depReleases = s.depReleases := rfl
@[simp] theorem State.occupy_workPts (s : State) (slot n : Nat) : (s.occupy slot n).workPts = s.workPts := rfl
@[simp] theorem State.occupy_tasks (s : State) (slot n : Nat) : (s.occupy slot n).tasks = s.tasks := rfl
@[simp] theorem State.occupy_saved (s : State) (slot n : Nat) : (s.occupy slot n).saved = s.saved := rfl
@[simp] theorem State.occupy_links (s : State) (slot n : Nat) : (s.occupy slot n).links = s.links := rfl
@[simp] theorem State.occupy_mgmt (s : State) (slot n : Nat) : (s.occupy slot n).mgmt = s.mgmt := rfl
@[simp] theorem State.occupy_counted (s : State) (slot n : Nat) : (s.occupy slot n).counted = s.counted := rfl
@[simp] theorem State.occupy_faultRecords (s : State) (slot n : Nat) : (s.occupy slot n).faultRecords = s.faultRecords := rfl

/-! holdIssue changes `issue` alone. -/

@[simp] theorem State.holdIssue_cur (s : State) : (s.holdIssue).cur = s.cur := rfl
@[simp] theorem State.holdIssue_me (s : State) : (s.holdIssue).me = s.me := rfl
@[simp] theorem State.holdIssue_others (s : State) : (s.holdIssue).others = s.others := rfl
@[simp] theorem State.holdIssue_cycle (s : State) : (s.holdIssue).cycle = s.cycle := rfl
@[simp] theorem State.holdIssue_nextStep (s : State) : (s.holdIssue).nextStep = s.nextStep := rfl
@[simp] theorem State.holdIssue_nextTick (s : State) : (s.holdIssue).nextTick = s.nextTick := rfl
@[simp] theorem State.holdIssue_ptsTicks (s : State) : (s.holdIssue).ptsTicks = s.ptsTicks := rfl
@[simp] theorem State.holdIssue_inputs (s : State) : (s.holdIssue).inputs = s.inputs := rfl
@[simp] theorem State.holdIssue_freeCount (s : State) : (s.holdIssue).freeCount = s.freeCount := rfl
@[simp] theorem State.holdIssue_nextId (s : State) : (s.holdIssue).nextId = s.nextId := rfl
@[simp] theorem State.holdIssue_cores (s : State) : (s.holdIssue).cores = s.cores := rfl
@[simp] theorem State.holdIssue_clusters (s : State) : (s.holdIssue).clusters = s.clusters := rfl
@[simp] theorem State.holdIssue_mem (s : State) : (s.holdIssue).mem = s.mem := rfl
@[simp] theorem State.holdIssue_lines (s : State) : (s.holdIssue).lines = s.lines := rfl
@[simp] theorem State.holdIssue_l1 (s : State) : (s.holdIssue).l1 = s.l1 := rfl
@[simp] theorem State.holdIssue_rowStamps (s : State) : (s.holdIssue).rowStamps = s.rowStamps := rfl
@[simp] theorem State.holdIssue_homeTick (s : State) : (s.holdIssue).homeTick = s.homeTick := rfl
@[simp] theorem State.holdIssue_faults (s : State) : (s.holdIssue).faults = s.faults := rfl
@[simp] theorem State.holdIssue_corrections (s : State) : (s.holdIssue).corrections = s.corrections := rfl
@[simp] theorem State.holdIssue_retired (s : State) : (s.holdIssue).retired = s.retired := rfl
@[simp] theorem State.holdIssue_busFaults (s : State) : (s.holdIssue).busFaults = s.busFaults := rfl
@[simp] theorem State.holdIssue_errorCounts (s : State) : (s.holdIssue).errorCounts = s.errorCounts := rfl
@[simp] theorem State.holdIssue_stkerr (s : State) : (s.holdIssue).stkerr = s.stkerr := rfl
@[simp] theorem State.holdIssue_timeStep (s : State) : (s.holdIssue).timeStep = s.timeStep := rfl
@[simp] theorem State.holdIssue_detReq (s : State) : (s.holdIssue).detReq = s.detReq := rfl
@[simp] theorem State.holdIssue_detAct (s : State) : (s.holdIssue).detAct = s.detAct := rfl
@[simp] theorem State.holdIssue_aligned (s : State) : (s.holdIssue).aligned = s.aligned := rfl
@[simp] theorem State.holdIssue_logT (s : State) : (s.holdIssue).logT = s.logT := rfl
@[simp] theorem State.holdIssue_logTNext (s : State) : (s.holdIssue).logTNext = s.logTNext := rfl
@[simp] theorem State.holdIssue_root (s : State) : (s.holdIssue).root = s.root := rfl
@[simp] theorem State.holdIssue_markersGood (s : State) : (s.holdIssue).markersGood = s.markersGood := rfl
@[simp] theorem State.holdIssue_alignLost (s : State) : (s.holdIssue).alignLost = s.alignLost := rfl
@[simp] theorem State.holdIssue_module (s : State) : (s.holdIssue).module = s.module := rfl
@[simp] theorem State.holdIssue_tvec (s : State) : (s.holdIssue).tvec = s.tvec := rfl
@[simp] theorem State.holdIssue_engines (s : State) : (s.holdIssue).engines = s.engines := rfl
@[simp] theorem State.holdIssue_hostLines (s : State) : (s.holdIssue).hostLines = s.hostLines := rfl
@[simp] theorem State.holdIssue_l2 (s : State) : (s.holdIssue).l2 = s.l2 := rfl
@[simp] theorem State.holdIssue_l2Demoted (s : State) : (s.holdIssue).l2Demoted = s.l2Demoted := rfl
@[simp] theorem State.holdIssue_early (s : State) : (s.holdIssue).early = s.early := rfl
@[simp] theorem State.holdIssue_late (s : State) : (s.holdIssue).late = s.late := rfl
@[simp] theorem State.holdIssue_icache (s : State) : (s.holdIssue).icache = s.icache := rfl
@[simp] theorem State.holdIssue_shardBefore (s : State) : (s.holdIssue).shardBefore = s.shardBefore := rfl
@[simp] theorem State.holdIssue_scrubNext (s : State) : (s.holdIssue).scrubNext = s.scrubNext := rfl
@[simp] theorem State.holdIssue_scrubStart (s : State) : (s.holdIssue).scrubStart = s.scrubStart := rfl
@[simp] theorem State.holdIssue_markerLast (s : State) : (s.holdIssue).markerLast = s.markerLast := rfl
@[simp] theorem State.holdIssue_lastStep (s : State) : (s.holdIssue).lastStep = s.lastStep := rfl
@[simp] theorem State.holdIssue_leftRegions (s : State) : (s.holdIssue).leftRegions = s.leftRegions := rfl
@[simp] theorem State.holdIssue_arosel (s : State) : (s.holdIssue).arosel = s.arosel := rfl
@[simp] theorem State.holdIssue_aroTable (s : State) : (s.holdIssue).aroTable = s.aroTable := rfl
@[simp] theorem State.holdIssue_generation (s : State) : (s.holdIssue).generation = s.generation := rfl
@[simp] theorem State.holdIssue_images (s : State) : (s.holdIssue).images = s.images := rfl
@[simp] theorem State.holdIssue_jobs (s : State) : (s.holdIssue).jobs = s.jobs := rfl
@[simp] theorem State.holdIssue_breaches (s : State) : (s.holdIssue).breaches = s.breaches := rfl
@[simp] theorem State.holdIssue_precancels (s : State) : (s.holdIssue).precancels = s.precancels := rfl
@[simp] theorem State.holdIssue_requests (s : State) : (s.holdIssue).requests = s.requests := rfl
@[simp] theorem State.holdIssue_queues (s : State) : (s.holdIssue).queues = s.queues := rfl
@[simp] theorem State.holdIssue_slotRecords (s : State) : (s.holdIssue).slotRecords = s.slotRecords := rfl
@[simp] theorem State.holdIssue_slotStatus (s : State) : (s.holdIssue).slotStatus = s.slotStatus := rfl
@[simp] theorem State.holdIssue_served (s : State) : (s.holdIssue).served = s.served := rfl
@[simp] theorem State.holdIssue_depCounters (s : State) : (s.holdIssue).depCounters = s.depCounters := rfl
@[simp] theorem State.holdIssue_releases (s : State) : (s.holdIssue).releases = s.releases := rfl
@[simp] theorem State.holdIssue_depReleases (s : State) : (s.holdIssue).depReleases = s.depReleases := rfl
@[simp] theorem State.holdIssue_workPts (s : State) : (s.holdIssue).workPts = s.workPts := rfl
@[simp] theorem State.holdIssue_tasks (s : State) : (s.holdIssue).tasks = s.tasks := rfl
@[simp] theorem State.holdIssue_saved (s : State) : (s.holdIssue).saved = s.saved := rfl
@[simp] theorem State.holdIssue_links (s : State) : (s.holdIssue).links = s.links := rfl
@[simp] theorem State.holdIssue_mgmt (s : State) : (s.holdIssue).mgmt = s.mgmt := rfl
@[simp] theorem State.holdIssue_counted (s : State) : (s.holdIssue).counted = s.counted := rfl
@[simp] theorem State.holdIssue_faultRecords (s : State) : (s.holdIssue).faultRecords = s.faultRecords := rfl

/-! checking changes `issue` alone. -/

@[simp] theorem State.checking_cur (s : State) (l : List Nat) : (s.checking l).cur = s.cur := rfl
@[simp] theorem State.checking_me (s : State) (l : List Nat) : (s.checking l).me = s.me := rfl
@[simp] theorem State.checking_others (s : State) (l : List Nat) : (s.checking l).others = s.others := rfl
@[simp] theorem State.checking_cycle (s : State) (l : List Nat) : (s.checking l).cycle = s.cycle := rfl
@[simp] theorem State.checking_nextStep (s : State) (l : List Nat) : (s.checking l).nextStep = s.nextStep := rfl
@[simp] theorem State.checking_nextTick (s : State) (l : List Nat) : (s.checking l).nextTick = s.nextTick := rfl
@[simp] theorem State.checking_ptsTicks (s : State) (l : List Nat) : (s.checking l).ptsTicks = s.ptsTicks := rfl
@[simp] theorem State.checking_inputs (s : State) (l : List Nat) : (s.checking l).inputs = s.inputs := rfl
@[simp] theorem State.checking_freeCount (s : State) (l : List Nat) : (s.checking l).freeCount = s.freeCount := rfl
@[simp] theorem State.checking_nextId (s : State) (l : List Nat) : (s.checking l).nextId = s.nextId := rfl
@[simp] theorem State.checking_cores (s : State) (l : List Nat) : (s.checking l).cores = s.cores := rfl
@[simp] theorem State.checking_clusters (s : State) (l : List Nat) : (s.checking l).clusters = s.clusters := rfl
@[simp] theorem State.checking_mem (s : State) (l : List Nat) : (s.checking l).mem = s.mem := rfl
@[simp] theorem State.checking_lines (s : State) (l : List Nat) : (s.checking l).lines = s.lines := rfl
@[simp] theorem State.checking_l1 (s : State) (l : List Nat) : (s.checking l).l1 = s.l1 := rfl
@[simp] theorem State.checking_rowStamps (s : State) (l : List Nat) : (s.checking l).rowStamps = s.rowStamps := rfl
@[simp] theorem State.checking_homeTick (s : State) (l : List Nat) : (s.checking l).homeTick = s.homeTick := rfl
@[simp] theorem State.checking_faults (s : State) (l : List Nat) : (s.checking l).faults = s.faults := rfl
@[simp] theorem State.checking_corrections (s : State) (l : List Nat) : (s.checking l).corrections = s.corrections := rfl
@[simp] theorem State.checking_retired (s : State) (l : List Nat) : (s.checking l).retired = s.retired := rfl
@[simp] theorem State.checking_busFaults (s : State) (l : List Nat) : (s.checking l).busFaults = s.busFaults := rfl
@[simp] theorem State.checking_errorCounts (s : State) (l : List Nat) : (s.checking l).errorCounts = s.errorCounts := rfl
@[simp] theorem State.checking_stkerr (s : State) (l : List Nat) : (s.checking l).stkerr = s.stkerr := rfl
@[simp] theorem State.checking_timeStep (s : State) (l : List Nat) : (s.checking l).timeStep = s.timeStep := rfl
@[simp] theorem State.checking_detReq (s : State) (l : List Nat) : (s.checking l).detReq = s.detReq := rfl
@[simp] theorem State.checking_detAct (s : State) (l : List Nat) : (s.checking l).detAct = s.detAct := rfl
@[simp] theorem State.checking_aligned (s : State) (l : List Nat) : (s.checking l).aligned = s.aligned := rfl
@[simp] theorem State.checking_logT (s : State) (l : List Nat) : (s.checking l).logT = s.logT := rfl
@[simp] theorem State.checking_logTNext (s : State) (l : List Nat) : (s.checking l).logTNext = s.logTNext := rfl
@[simp] theorem State.checking_root (s : State) (l : List Nat) : (s.checking l).root = s.root := rfl
@[simp] theorem State.checking_markersGood (s : State) (l : List Nat) : (s.checking l).markersGood = s.markersGood := rfl
@[simp] theorem State.checking_alignLost (s : State) (l : List Nat) : (s.checking l).alignLost = s.alignLost := rfl
@[simp] theorem State.checking_module (s : State) (l : List Nat) : (s.checking l).module = s.module := rfl
@[simp] theorem State.checking_tvec (s : State) (l : List Nat) : (s.checking l).tvec = s.tvec := rfl
@[simp] theorem State.checking_engines (s : State) (l : List Nat) : (s.checking l).engines = s.engines := rfl
@[simp] theorem State.checking_hostLines (s : State) (l : List Nat) : (s.checking l).hostLines = s.hostLines := rfl
@[simp] theorem State.checking_l2 (s : State) (l : List Nat) : (s.checking l).l2 = s.l2 := rfl
@[simp] theorem State.checking_l2Demoted (s : State) (l : List Nat) : (s.checking l).l2Demoted = s.l2Demoted := rfl
@[simp] theorem State.checking_early (s : State) (l : List Nat) : (s.checking l).early = s.early := rfl
@[simp] theorem State.checking_late (s : State) (l : List Nat) : (s.checking l).late = s.late := rfl
@[simp] theorem State.checking_icache (s : State) (l : List Nat) : (s.checking l).icache = s.icache := rfl
@[simp] theorem State.checking_shardBefore (s : State) (l : List Nat) : (s.checking l).shardBefore = s.shardBefore := rfl
@[simp] theorem State.checking_scrubNext (s : State) (l : List Nat) : (s.checking l).scrubNext = s.scrubNext := rfl
@[simp] theorem State.checking_scrubStart (s : State) (l : List Nat) : (s.checking l).scrubStart = s.scrubStart := rfl
@[simp] theorem State.checking_markerLast (s : State) (l : List Nat) : (s.checking l).markerLast = s.markerLast := rfl
@[simp] theorem State.checking_lastStep (s : State) (l : List Nat) : (s.checking l).lastStep = s.lastStep := rfl
@[simp] theorem State.checking_leftRegions (s : State) (l : List Nat) : (s.checking l).leftRegions = s.leftRegions := rfl
@[simp] theorem State.checking_arosel (s : State) (l : List Nat) : (s.checking l).arosel = s.arosel := rfl
@[simp] theorem State.checking_aroTable (s : State) (l : List Nat) : (s.checking l).aroTable = s.aroTable := rfl
@[simp] theorem State.checking_generation (s : State) (l : List Nat) : (s.checking l).generation = s.generation := rfl
@[simp] theorem State.checking_images (s : State) (l : List Nat) : (s.checking l).images = s.images := rfl
@[simp] theorem State.checking_jobs (s : State) (l : List Nat) : (s.checking l).jobs = s.jobs := rfl
@[simp] theorem State.checking_breaches (s : State) (l : List Nat) : (s.checking l).breaches = s.breaches := rfl
@[simp] theorem State.checking_precancels (s : State) (l : List Nat) : (s.checking l).precancels = s.precancels := rfl
@[simp] theorem State.checking_requests (s : State) (l : List Nat) : (s.checking l).requests = s.requests := rfl
@[simp] theorem State.checking_queues (s : State) (l : List Nat) : (s.checking l).queues = s.queues := rfl
@[simp] theorem State.checking_slotRecords (s : State) (l : List Nat) : (s.checking l).slotRecords = s.slotRecords := rfl
@[simp] theorem State.checking_slotStatus (s : State) (l : List Nat) : (s.checking l).slotStatus = s.slotStatus := rfl
@[simp] theorem State.checking_served (s : State) (l : List Nat) : (s.checking l).served = s.served := rfl
@[simp] theorem State.checking_depCounters (s : State) (l : List Nat) : (s.checking l).depCounters = s.depCounters := rfl
@[simp] theorem State.checking_releases (s : State) (l : List Nat) : (s.checking l).releases = s.releases := rfl
@[simp] theorem State.checking_depReleases (s : State) (l : List Nat) : (s.checking l).depReleases = s.depReleases := rfl
@[simp] theorem State.checking_workPts (s : State) (l : List Nat) : (s.checking l).workPts = s.workPts := rfl
@[simp] theorem State.checking_tasks (s : State) (l : List Nat) : (s.checking l).tasks = s.tasks := rfl
@[simp] theorem State.checking_saved (s : State) (l : List Nat) : (s.checking l).saved = s.saved := rfl
@[simp] theorem State.checking_links (s : State) (l : List Nat) : (s.checking l).links = s.links := rfl
@[simp] theorem State.checking_mgmt (s : State) (l : List Nat) : (s.checking l).mgmt = s.mgmt := rfl
@[simp] theorem State.checking_counted (s : State) (l : List Nat) : (s.checking l).counted = s.counted := rfl
@[simp] theorem State.checking_faultRecords (s : State) (l : List Nat) : (s.checking l).faultRecords = s.faultRecords := rfl

/-! What a read or a write of the stacked layers may change beside memory (R21 to R26). -/

/-- A log record changes the management state alone. (A proof by rfl of one field of it sends the kernel into the record
itself; this lemma does not.) -/
theorem State.post_eq (s : State) (a b c d : Nat) : ∃ m, s.post a b c d = { s with mgmt := m } := ⟨_, rfl⟩
/-- `t` differs from `s` at most in line data, latent faults, corrections, error counts, STKERR, the management state,
retired banks and the history of bus faults. -/
def stackOnly (s t : State) : Prop :=
  ∃ l f c e k m r b, t = { s with
    lines := l, faults := f, corrections := c, errorCounts := e, stkerr := k, mgmt := m, retired := r, busFaults := b }
theorem stackOnly.refl (s : State) : stackOnly s s := ⟨_, _, _, _, _, _, _, _, rfl⟩
theorem stackOnly.trans {s t u : State} (h : stackOnly s t) (h' : stackOnly t u) : stackOnly s u := by
  obtain ⟨_, _, _, _, _, _, _, _, rfl⟩ := h
  obtain ⟨_, _, _, _, _, _, _, _, rfl⟩ := h'
  exact ⟨_, _, _, _, _, _, _, _, rfl⟩
theorem State.latchError_only (s : State) (k c b g w : Nat) (wr e : Bool) : stackOnly s (s.latchError k c b g w wr e) := by
  obtain ⟨m, h⟩ := State.post_eq { s with
    stkerr := if s.stkerr.getLsbD 63 = false || bits s.stkerr.toNat 62 60 < k then stkerrWord k c b g w wr e else s.stkerr }
    (if k = 5 then 0x0002 else 0x0001) (if k = 1 || k = 2 then 1 else 2) (c / 16) (stkerrWord k c b g w wr e).toNat
  exact ⟨_, _, _, _, _, _, _, _, h⟩
theorem State.stackError_only (s : State) (k c b g w : Nat) (wr e : Bool) : stackOnly s (s.stackError k c b g w wr e) :=
  stackOnly.trans ⟨_, _, _, _, _, _, _, _, rfl⟩ (State.latchError_only _ k c b g w wr e)
theorem State.retireBank_only (s : State) (c b : Nat) : stackOnly s (s.retireBank c b) := by
  simp only [State.retireBank]
  split
  · exact .refl s
  · exact stackOnly.trans ⟨_, _, _, _, _, _, _, _, rfl⟩ (State.latchError_only _ _ _ _ _ _ _ _)
theorem State.busFault_only (s : State) (c b : Nat) : stackOnly s (s.busFault c b) := by
  simp only [State.busFault]
  split
  · exact stackOnly.trans ⟨_, _, _, _, _, _, _, _, rfl⟩ (State.retireBank_only _ _ _)
  · exact ⟨_, _, _, _, _, _, _, _, rfl⟩
/-- A fold of such changes is one. -/
theorem foldl_only {α : Type} (f : State → α → State) (hf : ∀ s a, stackOnly s (f s a)) (l : List α) :
    ∀ s : State, stackOnly s (l.foldl f s) := by
  induction l with
  | nil => exact .refl
  | cons a l ih => exact fun s => (hf s a).trans (ih _)
theorem State.transferred_only (s : State) (l : Nat) : stackOnly s (s.transferred l) := ⟨_, _, _, _, _, _, _, _, rfl⟩
theorem State.badWord_only (s : State) (l c b w : Nat) (e : Bool) (f : CellFault) : stackOnly s (s.badWord l c b w e f) := by
  cases f with
  | busRetry _ | busFail _ => exact .refl s
  | cellDouble _ => exact State.stackError_only _ _ _ _ _ _ _ _
  | cellSingle _ => exact stackOnly.trans (State.stackError_only _ _ _ _ _ _ _ _) ⟨_, _, _, _, _, _, _, _, rfl⟩
theorem State.sramLine_only (s : State) (pa : Nat) (e : Bool) : stackOnly s (s.sramLine pa e).1 := by
  simp only [State.sramLine]
  split
  · exact (State.transferred_only _ _).trans ((State.stackError_only _ _ _ _ _ _ _ _).trans (State.retireBank_only _ _ _))
  · split
    · exact (State.transferred_only _ _).trans ((State.stackError_only _ _ _ _ _ _ _ _).trans (State.busFault_only _ _ _))
    · exact (State.transferred_only _ _).trans (foldl_only _ (fun _ _ => State.badWord_only _ _ _ _ _ _ _) _ _)
  · exact foldl_only _ (fun _ _ => State.badWord_only _ _ _ _ _ _ _) _ _
/-- A read of a bank may also draw a free value, in a retired one (R26). -/
theorem State.sramRead_only (s : State) (pa : Nat) (e : Bool) (g : List Nat) :
    ∃ n, stackOnly { s with freeCount := n } (s.sramRead pa e g).1 := by
  simp only [State.sramRead]
  split
  · exact ⟨s.freeCount + 1, .refl _⟩
  · exact ⟨s.freeCount, s.sramLine_only pa e⟩
theorem State.sramWrite_only (s : State) (pa n : Nat) (e : Bool) (m : BitVec 64) :
    stackOnly s (s.sramWrite pa n e m) := by
  simp only [State.sramWrite]
  split
  · exact stackOnly.trans ⟨_, _, _, _, _, _, _, _, rfl⟩
      (stackOnly.trans (State.stackError_only _ _ _ _ _ _ _ _) (State.retireBank_only _ _ _))
  · exact stackOnly.trans ⟨_, _, _, _, _, _, _, _, rfl⟩
      (stackOnly.trans (State.stackError_only _ _ _ _ _ _ _ _) (State.busFault_only _ _ _))
  · exact ⟨_, _, _, _, _, _, _, _, rfl⟩
/-- A write through an engine port changes memory, what the ports keep of the cycle (R152), and the breaches (R11). -/
theorem State.engineWrite_eq (s : State) (pa n v : Nat) (e : Option Bool) (m : BitVec 64) :
    ∃ x y, s.engineWrite pa n v e m =
      { s with mem := storeBytes s.mem pa n v, early := x, late := y, breaches := s.breaches ++ s.breachesOf pa n m } := by
  have keep : ∀ (l : List Nat) (t : State), ∃ y, l.foldl (fun (t : State) l => t.keepLate pa n l m e) t = { t with late := y } := by
    intro l
    induction l with
    | nil => exact fun t => ⟨_, rfl⟩
    | cons a l ih => exact fun t => (ih (t.keepLate pa n a m e)).imp fun y h => h
  obtain ⟨y, h⟩ := keep (linesOf pa n) s
  exact ⟨_, y, by simp only [State.engineWrite, State.portUsed, h]; rfl⟩
/-- A write to lines of a bank changes regions of contexts and of Saved works, and nothing else (R155). -/
theorem State.markDirty_only (s : State) (cl b off n : Nat) :
    ∃ r o v, s.markDirty cl b off n = { s with me := { s.me with regions := r }, others := o, saved := v } := by
  have step : ∀ (f : Ctx → List MapRegion) (p : State → Nat → Bool) (l : List Nat) (t : State), ∃ r o,
      l.foldl (fun (t : State) l => if p t l then t.modCtx l fun c => { c with regions := f c } else t) t =
        { t with me := { t.me with regions := r }, others := o } := by
    intro f p l
    induction l with
    | nil => exact fun t => ⟨_, _, rfl⟩
    | cons a l ih =>
      intro t
      obtain ⟨r, o, h⟩ := ih (if p t a then t.modCtx a fun c => { c with regions := f c } else t)
      refine ⟨r, o, h.trans ?_⟩
      split
      · simp only [State.modCtx, State.setCtx, State.ctx]
        split <;> rfl
      · rfl
  obtain ⟨r, o, h⟩ := step _ (fun t l => clusterOf l = cl && (t.ctx l).regions ≠ []) s.places s
  exact ⟨r, o, _, by simp only [State.markDirty]; rw [h]⟩
/-- A barrier's word is written, and what a write of its line may change beside memory. -/
theorem State.setBarrier_only (s : State) (pa : Nat) (b : Barrier) :
    ∃ x y r o v, stackOnly { s with
        mem := storeBytes s.mem pa 16 (b.word (s.portBytes true pa 16)), early := x, late := y
        breaches := s.breaches ++ s.breachesOf pa 16 (BitVec.allOnes 64)
        me := { s.me with regions := r }, others := o, saved := v } (s.setBarrier pa b) := by
  obtain ⟨x, y, h⟩ := s.engineWrite_eq pa 16 (b.word (s.portBytes true pa 16)) none (BitVec.allOnes 64)
  obtain ⟨l, f, c, e, k, m, w, z, hs⟩ := State.sramWrite_only
    (s.engineWrite pa 16 (b.word (s.portBytes true pa 16)) none) pa 16 true (BitVec.allOnes 64)
  obtain ⟨r, o, v, hd⟩ := State.markDirty_only
    ((s.engineWrite pa 16 (b.word (s.portBytes true pa 16)) none).sramWrite pa 16 true) (clusterOfPa pa) (bankOfPa pa)
    (pa % 2 ^ 22) 16
  exact ⟨x, y, r, o, v, l, f, c, e, k, m, w, z, by simp only [State.setBarrier]; rw [hd, hs, h]⟩
@[simp] theorem State.setBarrier_mem (s : State) (pa : Nat) (b : Barrier) :
    (s.setBarrier pa b).mem = storeBytes s.mem pa 16 (b.word (s.portBytes true pa 16)) := by
  obtain ⟨_, _, _, _, _, _, _, _, _, _, _, _, _, h⟩ := s.setBarrier_only pa b; rw [h]
@[simp] theorem State.setBarrier_cur (s : State) (pa : Nat) (b : Barrier) : (s.setBarrier pa b).cur = s.cur := by
  obtain ⟨_, _, _, _, _, _, _, _, _, _, _, _, _, h⟩ := s.setBarrier_only pa b; rw [h]
/-- Of the acting context only the regions can change. -/
theorem State.setBarrier_me (s : State) (pa : Nat) (b : Barrier) :
    ∃ r, (s.setBarrier pa b).me = { s.me with regions := r } := by
  obtain ⟨_, _, r, _, _, _, _, _, _, _, _, _, _, h⟩ := s.setBarrier_only pa b; exact ⟨r, by rw [h]⟩
@[simp] theorem State.setBarrier_regs (s : State) (pa : Nat) (b : Barrier) : (s.setBarrier pa b).me.regs = s.me.regs := by
  obtain ⟨_, h⟩ := s.setBarrier_me pa b; rw [h]
@[simp] theorem State.setBarrier_inflight (s : State) (pa : Nat) (b : Barrier) :
    (s.setBarrier pa b).me.inflight = s.me.inflight := by
  obtain ⟨_, h⟩ := s.setBarrier_me pa b; rw [h]
@[simp] theorem State.setBarrier_issue (s : State) (pa : Nat) (b : Barrier) : (s.setBarrier pa b).issue = s.issue := by
  obtain ⟨_, _, _, _, _, _, _, _, _, _, _, _, _, h⟩ := s.setBarrier_only pa b; rw [h]
@[simp] theorem State.setBarrier_cycle (s : State) (pa : Nat) (b : Barrier) : (s.setBarrier pa b).cycle = s.cycle := by
  obtain ⟨_, _, _, _, _, _, _, _, _, _, _, _, _, h⟩ := s.setBarrier_only pa b; rw [h]
@[simp] theorem State.setBarrier_nextStep (s : State) (pa : Nat) (b : Barrier) : (s.setBarrier pa b).nextStep = s.nextStep := by
  obtain ⟨_, _, _, _, _, _, _, _, _, _, _, _, _, h⟩ := s.setBarrier_only pa b; rw [h]
@[simp] theorem State.setBarrier_nextTick (s : State) (pa : Nat) (b : Barrier) : (s.setBarrier pa b).nextTick = s.nextTick := by
  obtain ⟨_, _, _, _, _, _, _, _, _, _, _, _, _, h⟩ := s.setBarrier_only pa b; rw [h]
@[simp] theorem State.setBarrier_ptsTicks (s : State) (pa : Nat) (b : Barrier) : (s.setBarrier pa b).ptsTicks = s.ptsTicks := by
  obtain ⟨_, _, _, _, _, _, _, _, _, _, _, _, _, h⟩ := s.setBarrier_only pa b; rw [h]
@[simp] theorem State.setBarrier_inputs (s : State) (pa : Nat) (b : Barrier) : (s.setBarrier pa b).inputs = s.inputs := by
  obtain ⟨_, _, _, _, _, _, _, _, _, _, _, _, _, h⟩ := s.setBarrier_only pa b; rw [h]
@[simp] theorem State.setBarrier_freeCount (s : State) (pa : Nat) (b : Barrier) : (s.setBarrier pa b).freeCount = s.freeCount := by
  obtain ⟨_, _, _, _, _, _, _, _, _, _, _, _, _, h⟩ := s.setBarrier_only pa b; rw [h]
@[simp] theorem State.setBarrier_nextId (s : State) (pa : Nat) (b : Barrier) : (s.setBarrier pa b).nextId = s.nextId := by
  obtain ⟨_, _, _, _, _, _, _, _, _, _, _, _, _, h⟩ := s.setBarrier_only pa b; rw [h]
@[simp] theorem State.setBarrier_cores (s : State) (pa : Nat) (b : Barrier) : (s.setBarrier pa b).cores = s.cores := by
  obtain ⟨_, _, _, _, _, _, _, _, _, _, _, _, _, h⟩ := s.setBarrier_only pa b; rw [h]
@[simp] theorem State.setBarrier_clusters (s : State) (pa : Nat) (b : Barrier) : (s.setBarrier pa b).clusters = s.clusters := by
  obtain ⟨_, _, _, _, _, _, _, _, _, _, _, _, _, h⟩ := s.setBarrier_only pa b; rw [h]
@[simp] theorem State.setBarrier_icache (s : State) (pa : Nat) (b : Barrier) : (s.setBarrier pa b).icache = s.icache := by
  obtain ⟨_, _, _, _, _, _, _, _, _, _, _, _, _, h⟩ := s.setBarrier_only pa b; rw [h]
@[simp] theorem State.setBarrier_shardBefore (s : State) (pa : Nat) (b : Barrier) : (s.setBarrier pa b).shardBefore = s.shardBefore := by
  obtain ⟨_, _, _, _, _, _, _, _, _, _, _, _, _, h⟩ := s.setBarrier_only pa b; rw [h]
@[simp] theorem State.setBarrier_l1 (s : State) (pa : Nat) (b : Barrier) : (s.setBarrier pa b).l1 = s.l1 := by
  obtain ⟨_, _, _, _, _, _, _, _, _, _, _, _, _, h⟩ := s.setBarrier_only pa b; rw [h]
@[simp] theorem State.setBarrier_rowStamps (s : State) (pa : Nat) (b : Barrier) : (s.setBarrier pa b).rowStamps = s.rowStamps := by
  obtain ⟨_, _, _, _, _, _, _, _, _, _, _, _, _, h⟩ := s.setBarrier_only pa b; rw [h]
@[simp] theorem State.setBarrier_homeTick (s : State) (pa : Nat) (b : Barrier) : (s.setBarrier pa b).homeTick = s.homeTick := by
  obtain ⟨_, _, _, _, _, _, _, _, _, _, _, _, _, h⟩ := s.setBarrier_only pa b; rw [h]
@[simp] theorem State.setBarrier_timeStep (s : State) (pa : Nat) (b : Barrier) : (s.setBarrier pa b).timeStep = s.timeStep := by
  obtain ⟨_, _, _, _, _, _, _, _, _, _, _, _, _, h⟩ := s.setBarrier_only pa b; rw [h]
@[simp] theorem State.setBarrier_detReq (s : State) (pa : Nat) (b : Barrier) : (s.setBarrier pa b).detReq = s.detReq := by
  obtain ⟨_, _, _, _, _, _, _, _, _, _, _, _, _, h⟩ := s.setBarrier_only pa b; rw [h]
@[simp] theorem State.setBarrier_detAct (s : State) (pa : Nat) (b : Barrier) : (s.setBarrier pa b).detAct = s.detAct := by
  obtain ⟨_, _, _, _, _, _, _, _, _, _, _, _, _, h⟩ := s.setBarrier_only pa b; rw [h]
@[simp] theorem State.setBarrier_aligned (s : State) (pa : Nat) (b : Barrier) : (s.setBarrier pa b).aligned = s.aligned := by
  obtain ⟨_, _, _, _, _, _, _, _, _, _, _, _, _, h⟩ := s.setBarrier_only pa b; rw [h]
@[simp] theorem State.setBarrier_logT (s : State) (pa : Nat) (b : Barrier) : (s.setBarrier pa b).logT = s.logT := by
  obtain ⟨_, _, _, _, _, _, _, _, _, _, _, _, _, h⟩ := s.setBarrier_only pa b; rw [h]
@[simp] theorem State.setBarrier_logTNext (s : State) (pa : Nat) (b : Barrier) : (s.setBarrier pa b).logTNext = s.logTNext := by
  obtain ⟨_, _, _, _, _, _, _, _, _, _, _, _, _, h⟩ := s.setBarrier_only pa b; rw [h]
@[simp] theorem State.setBarrier_root (s : State) (pa : Nat) (b : Barrier) : (s.setBarrier pa b).root = s.root := by
  obtain ⟨_, _, _, _, _, _, _, _, _, _, _, _, _, h⟩ := s.setBarrier_only pa b; rw [h]
@[simp] theorem State.setBarrier_markersGood (s : State) (pa : Nat) (b : Barrier) : (s.setBarrier pa b).markersGood = s.markersGood := by
  obtain ⟨_, _, _, _, _, _, _, _, _, _, _, _, _, h⟩ := s.setBarrier_only pa b; rw [h]
@[simp] theorem State.setBarrier_alignLost (s : State) (pa : Nat) (b : Barrier) : (s.setBarrier pa b).alignLost = s.alignLost := by
  obtain ⟨_, _, _, _, _, _, _, _, _, _, _, _, _, h⟩ := s.setBarrier_only pa b; rw [h]
@[simp] theorem State.setBarrier_module (s : State) (pa : Nat) (b : Barrier) : (s.setBarrier pa b).module = s.module := by
  obtain ⟨_, _, _, _, _, _, _, _, _, _, _, _, _, h⟩ := s.setBarrier_only pa b; rw [h]
@[simp] theorem State.setBarrier_tvec (s : State) (pa : Nat) (b : Barrier) : (s.setBarrier pa b).tvec = s.tvec := by
  obtain ⟨_, _, _, _, _, _, _, _, _, _, _, _, _, h⟩ := s.setBarrier_only pa b; rw [h]
@[simp] theorem State.setBarrier_engines (s : State) (pa : Nat) (b : Barrier) : (s.setBarrier pa b).engines = s.engines := by
  obtain ⟨_, _, _, _, _, _, _, _, _, _, _, _, _, h⟩ := s.setBarrier_only pa b; rw [h]
@[simp] theorem State.setBarrier_hostLines (s : State) (pa : Nat) (b : Barrier) : (s.setBarrier pa b).hostLines = s.hostLines := by
  obtain ⟨_, _, _, _, _, _, _, _, _, _, _, _, _, h⟩ := s.setBarrier_only pa b; rw [h]
@[simp] theorem State.setBarrier_l2 (s : State) (pa : Nat) (b : Barrier) : (s.setBarrier pa b).l2 = s.l2 := by
  obtain ⟨_, _, _, _, _, _, _, _, _, _, _, _, _, h⟩ := s.setBarrier_only pa b; rw [h]
@[simp] theorem State.setBarrier_l2Demoted (s : State) (pa : Nat) (b : Barrier) : (s.setBarrier pa b).l2Demoted = s.l2Demoted := by
  obtain ⟨_, _, _, _, _, _, _, _, _, _, _, _, _, h⟩ := s.setBarrier_only pa b; rw [h]
@[simp] theorem State.setBarrier_scrubNext (s : State) (pa : Nat) (b : Barrier) : (s.setBarrier pa b).scrubNext = s.scrubNext := by
  obtain ⟨_, _, _, _, _, _, _, _, _, _, _, _, _, h⟩ := s.setBarrier_only pa b; rw [h]
@[simp] theorem State.setBarrier_scrubStart (s : State) (pa : Nat) (b : Barrier) : (s.setBarrier pa b).scrubStart = s.scrubStart := by
  obtain ⟨_, _, _, _, _, _, _, _, _, _, _, _, _, h⟩ := s.setBarrier_only pa b; rw [h]
@[simp] theorem State.setBarrier_markerLast (s : State) (pa : Nat) (b : Barrier) : (s.setBarrier pa b).markerLast = s.markerLast := by
  obtain ⟨_, _, _, _, _, _, _, _, _, _, _, _, _, h⟩ := s.setBarrier_only pa b; rw [h]
@[simp] theorem State.setBarrier_lastStep (s : State) (pa : Nat) (b : Barrier) : (s.setBarrier pa b).lastStep = s.lastStep := by
  obtain ⟨_, _, _, _, _, _, _, _, _, _, _, _, _, h⟩ := s.setBarrier_only pa b; rw [h]
@[simp] theorem State.setBarrier_leftRegions (s : State) (pa : Nat) (b : Barrier) : (s.setBarrier pa b).leftRegions = s.leftRegions := by
  obtain ⟨_, _, _, _, _, _, _, _, _, _, _, _, _, h⟩ := s.setBarrier_only pa b; rw [h]
@[simp] theorem State.setBarrier_arosel (s : State) (pa : Nat) (b : Barrier) : (s.setBarrier pa b).arosel = s.arosel := by
  obtain ⟨_, _, _, _, _, _, _, _, _, _, _, _, _, h⟩ := s.setBarrier_only pa b; rw [h]
@[simp] theorem State.setBarrier_aroTable (s : State) (pa : Nat) (b : Barrier) : (s.setBarrier pa b).aroTable = s.aroTable := by
  obtain ⟨_, _, _, _, _, _, _, _, _, _, _, _, _, h⟩ := s.setBarrier_only pa b; rw [h]
@[simp] theorem State.setBarrier_generation (s : State) (pa : Nat) (b : Barrier) : (s.setBarrier pa b).generation = s.generation := by
  obtain ⟨_, _, _, _, _, _, _, _, _, _, _, _, _, h⟩ := s.setBarrier_only pa b; rw [h]
@[simp] theorem State.setBarrier_images (s : State) (pa : Nat) (b : Barrier) : (s.setBarrier pa b).images = s.images := by
  obtain ⟨_, _, _, _, _, _, _, _, _, _, _, _, _, h⟩ := s.setBarrier_only pa b; rw [h]
@[simp] theorem State.setBarrier_jobs (s : State) (pa : Nat) (b : Barrier) : (s.setBarrier pa b).jobs = s.jobs := by
  obtain ⟨_, _, _, _, _, _, _, _, _, _, _, _, _, h⟩ := s.setBarrier_only pa b; rw [h]
@[simp] theorem State.setBarrier_precancels (s : State) (pa : Nat) (b : Barrier) :
    (s.setBarrier pa b).precancels = s.precancels := by
  obtain ⟨_, _, _, _, _, _, _, _, _, _, _, _, _, h⟩ := s.setBarrier_only pa b; rw [h]
@[simp] theorem State.setBarrier_requests (s : State) (pa : Nat) (b : Barrier) : (s.setBarrier pa b).requests = s.requests := by
  obtain ⟨_, _, _, _, _, _, _, _, _, _, _, _, _, h⟩ := s.setBarrier_only pa b; rw [h]
@[simp] theorem State.setBarrier_queues (s : State) (pa : Nat) (b : Barrier) : (s.setBarrier pa b).queues = s.queues := by
  obtain ⟨_, _, _, _, _, _, _, _, _, _, _, _, _, h⟩ := s.setBarrier_only pa b; rw [h]
@[simp] theorem State.setBarrier_slotRecords (s : State) (pa : Nat) (b : Barrier) : (s.setBarrier pa b).slotRecords = s.slotRecords := by
  obtain ⟨_, _, _, _, _, _, _, _, _, _, _, _, _, h⟩ := s.setBarrier_only pa b; rw [h]
@[simp] theorem State.setBarrier_slotStatus (s : State) (pa : Nat) (b : Barrier) : (s.setBarrier pa b).slotStatus = s.slotStatus := by
  obtain ⟨_, _, _, _, _, _, _, _, _, _, _, _, _, h⟩ := s.setBarrier_only pa b; rw [h]
@[simp] theorem State.setBarrier_served (s : State) (pa : Nat) (b : Barrier) : (s.setBarrier pa b).served = s.served := by
  obtain ⟨_, _, _, _, _, _, _, _, _, _, _, _, _, h⟩ := s.setBarrier_only pa b; rw [h]
@[simp] theorem State.setBarrier_depCounters (s : State) (pa : Nat) (b : Barrier) : (s.setBarrier pa b).depCounters = s.depCounters := by
  obtain ⟨_, _, _, _, _, _, _, _, _, _, _, _, _, h⟩ := s.setBarrier_only pa b; rw [h]
@[simp] theorem State.setBarrier_releases (s : State) (pa : Nat) (b : Barrier) : (s.setBarrier pa b).releases = s.releases := by
  obtain ⟨_, _, _, _, _, _, _, _, _, _, _, _, _, h⟩ := s.setBarrier_only pa b; rw [h]
@[simp] theorem State.setBarrier_depReleases (s : State) (pa : Nat) (b : Barrier) : (s.setBarrier pa b).depReleases = s.depReleases := by
  obtain ⟨_, _, _, _, _, _, _, _, _, _, _, _, _, h⟩ := s.setBarrier_only pa b; rw [h]
@[simp] theorem State.setBarrier_workPts (s : State) (pa : Nat) (b : Barrier) : (s.setBarrier pa b).workPts = s.workPts := by
  obtain ⟨_, _, _, _, _, _, _, _, _, _, _, _, _, h⟩ := s.setBarrier_only pa b; rw [h]
@[simp] theorem State.setBarrier_tasks (s : State) (pa : Nat) (b : Barrier) : (s.setBarrier pa b).tasks = s.tasks := by
  obtain ⟨_, _, _, _, _, _, _, _, _, _, _, _, _, h⟩ := s.setBarrier_only pa b; rw [h]
@[simp] theorem State.setBarrier_links (s : State) (pa : Nat) (b : Barrier) : (s.setBarrier pa b).links = s.links := by
  obtain ⟨_, _, _, _, _, _, _, _, _, _, _, _, _, h⟩ := s.setBarrier_only pa b; rw [h]
@[simp] theorem State.setBarrier_counted (s : State) (pa : Nat) (b : Barrier) : (s.setBarrier pa b).counted = s.counted := by
  obtain ⟨_, _, _, _, _, _, _, _, _, _, _, _, _, h⟩ := s.setBarrier_only pa b; rw [h]
@[simp] theorem State.setBarrier_faultRecords (s : State) (pa : Nat) (b : Barrier) : (s.setBarrier pa b).faultRecords = s.faultRecords := by
  obtain ⟨_, _, _, _, _, _, _, _, _, _, _, _, _, h⟩ := s.setBarrier_only pa b; rw [h]

end Sys2Proof.Machine
end

