-- ==== Sys2Proof/Laws/Table.lean ====
section
/-! SUPPORT. What reads of sparse tables and of memory give after a write, and the canonical form of memory. -/

namespace Sys2Proof.Machine

/-- A lookup in the entries whose keys satisfy `p`. -/
theorem lookup_filter_key {α : Type} (p : Nat → Bool) (t : List (Nat × α)) (k : Nat) :
    (t.filter fun e => p e.1).lookup k = if p k then t.lookup k else none := by
  induction t with
  | nil => simp
  | cons e t ih =>
    obtain ⟨a, v⟩ := e
    by_cases hk : k = a
    · subst hk
      by_cases hp : p k
      · simp [hp]
      · rw [List.filter_cons_of_neg (by simpa using hp), ih]
        simp [hp]
    · have hne : (k == a) = false := by simpa using hk
      by_cases hp : p a
      · rw [List.filter_cons_of_pos (by simpa using hp)]
        simp only [List.lookup_cons, hne, ih]
      · rw [List.filter_cons_of_neg (by simpa using hp), ih]
        simp only [List.lookup_cons, hne]

/-- A key that a table does not hold. -/
theorem lookup_none_of_forall {α : Type} (t : List (Nat × α)) (k : Nat) (h : ∀ e ∈ t, e.1 ≠ k) :
    t.lookup k = none := by
  induction t with
  | nil => rfl
  | cons e t ih =>
    obtain ⟨a, v⟩ := e
    have h1 : (k == a) = false := by simpa using fun hk : k = a => h (a, v) (by simp) hk.symm
    simp only [List.lookup_cons, h1]
    exact ih fun x hx => h x (by simp [hx])

/-- Reading a table at a key after a write. -/
theorem Table.get_set {α : Type} [DecidableEq α] (d : α) (t : Table α) (k j : Nat) (v : α) :
    Table.get d (Table.set d t k v) j = if j = k then v else Table.get d t j := by
  simp only [Table.get, Table.set, List.lookup_append, lookup_filter_key (fun a => decide (a < k)),
    lookup_filter_key (fun a => decide (k < a))]
  rcases Nat.lt_trichotomy j k with h | h | h
  · have h1 : (if v = d then ([] : List (Nat × α)) else [(k, v)]).lookup j = none :=
      lookup_none_of_forall _ _ fun e he => by split at he <;> simp at he; subst he; simp; omega
    have h2 : ¬ k < j := by omega
    have h3 : j ≠ k := by omega
    simp [h, h1, h2, h3]
  · subst h
    by_cases hv : v = d <;> simp [hv]
  · have h1 : (if v = d then ([] : List (Nat × α)) else [(k, v)]).lookup j = none :=
      lookup_none_of_forall _ _ fun e he => by split at he <;> simp at he; subst he; simp; omega
    have h2 : ¬ j < k := by omega
    have h3 : j ≠ k := by omega
    simp [h, h1, h2, h3]
@[simp] theorem Table.get_set_same {α : Type} [DecidableEq α] (d : α) (t : Table α) (k : Nat) (v : α) :
    Table.get d (Table.set d t k v) k = v := by simp [Table.get_set]
theorem Table.get_set_other {α : Type} [DecidableEq α] (d : α) (t : Table α) (k j : Nat) (v : α) (h : j ≠ k) :
    Table.get d (Table.set d t k v) j = Table.get d t j := by simp [Table.get_set, h]
@[simp] theorem Table.get_nil {α : Type} (d : α) (k : Nat) : Table.get d [] k = d := rfl

/-! Memory. -/

@[simp] theorem readByte_nil (a : Nat) : readByte [] a = emptyByte := rfl

/-- The keys that a write lists lie in it. -/
theorem cellsOf_keys (n : Nat) : ∀ (a v : Nat), ∀ c ∈ cellsOf a n v, a ≤ c.1 ∧ c.1 < a + n := by
  induction n with
  | zero => intro a v c hc; simp [cellsOf] at hc
  | succ n ih =>
    intro a v c hc
    simp only [cellsOf, List.mem_append] at hc
    rcases hc with hc | hc
    · split at hc <;> simp at hc; subst hc; exact ⟨Nat.le_refl _, by simp⟩
    · have := ih (a + 1) (v / 256) c hc; omega
/-- The bytes that a write lists. -/
theorem cellsOf_lookup (n : Nat) : ∀ (a v i : Nat), i < n →
    ((cellsOf a n v).lookup (a + i)).getD emptyByte = BitVec.ofNat 8 (v / 256 ^ i) := by
  induction n with
  | zero => intro a v i hi; omega
  | succ n ih =>
    intro a v i hi
    simp only [cellsOf, List.lookup_append]
    cases i with
    | zero =>
      have h1 : (cellsOf (a + 1) n (v / 256)).lookup a = none :=
        lookup_none_of_forall _ _ fun e he => by have := cellsOf_keys n (a + 1) (v / 256) e he; omega
      by_cases hv : BitVec.ofNat 8 v = emptyByte <;> simp [hv, h1]
    | succ i =>
      have h2 : (if BitVec.ofNat 8 v = emptyByte then ([] : List Host.Cell) else [(a, BitVec.ofNat 8 v)]).lookup
          (a + (i + 1)) = none :=
        lookup_none_of_forall _ _ fun e he => by split at he <;> simp at he; subst he; simp
      have h3 : a + (i + 1) = a + 1 + i := by omega
      rw [h2, h3]
      simp only [Option.none_or]
      rw [ih (a + 1) (v / 256) i (by omega), Nat.div_div_eq_div_mul, Nat.pow_succ']
/-- Reading a byte after a write: the byte of the value inside it, the old byte outside. -/
theorem readByte_storeBytes (m : List Host.Cell) (a n v b : Nat) :
    readByte (storeBytes m a n v) b =
      if a ≤ b ∧ b < a + n then BitVec.ofNat 8 (v / 256 ^ (b - a)) else readByte m b := by
  simp only [readByte, storeBytes, List.lookup_append, lookup_filter_key (fun x => decide (x < a)),
    lookup_filter_key (fun x => decide (a + n ≤ x))]
  by_cases h1 : b < a
  · have h2 : ¬ (a ≤ b ∧ b < a + n) := by omega
    have h3 : (cellsOf a n v).lookup b = none :=
      lookup_none_of_forall _ _ fun e he => by have := cellsOf_keys n a v e he; omega
    have h4 : ¬ a + n ≤ b := by omega
    simp [h1, h2, h3, h4]
  · by_cases h2 : a + n ≤ b
    · have h3 : ¬ (a ≤ b ∧ b < a + n) := by omega
      have h4 : (cellsOf a n v).lookup b = none :=
        lookup_none_of_forall _ _ fun e he => by have := cellsOf_keys n a v e he; omega
      simp [h1, h2, h3, h4]
    · have h3 : a ≤ b ∧ b < a + n := by omega
      have h4 := cellsOf_lookup n a v (b - a) (by omega)
      have h5 : a + (b - a) = b := by omega
      rw [h5] at h4
      simp [h1, h2, h3, h4]
/-- A byte outside a write reads as before. -/
theorem readByte_storeBytes_outside (m : List Host.Cell) (a n v b : Nat) (h : b < a ∨ a + n ≤ b) :
    readByte (storeBytes m a n v) b = readByte m b := by
  rw [readByte_storeBytes, if_neg (by omega)]

/-- The sum that a load makes over the cells of one write. -/
theorem foldl_cellsOf (n : Nat) : ∀ (base a v acc : Nat), base ≤ a →
    (cellsOf a n v).foldl (fun acc c => acc + c.2.toNat * 256 ^ (c.1 - base)) acc =
      acc + v % 256 ^ n * 256 ^ (a - base) := by
  induction n with
  | zero => intro base a v acc _; simp [cellsOf, Nat.mod_one]
  | succ n ih =>
    intro base a v acc hb
    have h256 : v % 256 ^ (n + 1) = v % 256 + 256 * (v / 256 % 256 ^ n) := by
      rw [Nat.pow_succ', Nat.mod_mul]
    have hp : 256 ^ (a + 1 - base) = 256 * 256 ^ (a - base) := by
      rw [show a + 1 - base = (a - base) + 1 by omega, Nat.pow_succ']
    simp only [cellsOf, List.foldl_append]
    rw [ih base (a + 1) (v / 256) _ (by omega), h256, hp]
    by_cases hv : BitVec.ofNat 8 v = emptyByte
    · have h0 : v % 256 = 0 := by simpa [emptyByte] using congrArg BitVec.toNat hv
      simp [hv, h0, Nat.mul_assoc, Nat.mul_left_comm]
    · simp [hv, Nat.add_mul, Nat.add_assoc, Nat.mul_assoc, Nat.mul_left_comm]
/-- A load of what a write has stored. -/
@[simp] theorem loadBytes_storeBytes_same (m : List Host.Cell) (a n v : Nat) :
    loadBytes (storeBytes m a n v) a n = v % 256 ^ n := by
  have h1 : (m.filter fun c => decide (c.1 < a)).filter (fun c => decide (a ≤ c.1) && decide (c.1 < a + n)) = [] := by
    simp [List.filter_eq_nil_iff]; intros; omega
  have h2 : (m.filter fun c => decide (a + n ≤ c.1)).filter (fun c => decide (a ≤ c.1) && decide (c.1 < a + n)) =
      [] := by
    simp [List.filter_eq_nil_iff]
  have h3 : (cellsOf a n v).filter (fun c => decide (a ≤ c.1) && decide (c.1 < a + n)) = cellsOf a n v := by
    refine List.filter_eq_self.2 fun c hc => ?_
    have := cellsOf_keys n a v c hc
    simp; omega
  simp only [loadBytes, storeBytes, List.filter_append, h1, h2, h3, List.nil_append, List.append_nil]
  rw [foldl_cellsOf n a a v 0 (Nat.le_refl _)]
  simp
/-- The keys of a canonical memory, said pairwise. -/
theorem rising_iff (l : List Nat) : rising l = true ↔ l.Pairwise (· < ·) := by
  induction l with
  | nil => simp [rising]
  | cons a rest ih =>
    cases rest with
    | nil => simp [rising]
    | cons b rest =>
      simp only [rising, Bool.and_eq_true, decide_eq_true_eq] at ih ⊢
      rw [ih]
      constructor
      · rintro ⟨h1, h2⟩
        refine List.pairwise_cons.2 ⟨fun x hx => ?_, h2⟩
        rcases List.mem_cons.1 hx with rfl | hx
        · exact h1
        · exact Nat.lt_trans h1 ((List.pairwise_cons.1 h2).1 x hx)
      · intro h
        exact ⟨(List.pairwise_cons.1 h).1 b (by simp), (List.pairwise_cons.1 h).2⟩
/-- The canonical form, as two conditions on the cells. -/
theorem Memory.wf_iff (m : List Host.Cell) :
    Memory.wf m = true ↔ m.Pairwise (fun c d => c.1 < d.1) ∧ ∀ c ∈ m, c.2 ≠ emptyByte := by
  simp [Memory.wf, rising_iff, List.pairwise_map]
/-- A load beside a write reads as before. -/
theorem loadBytes_storeBytes_outside (m : List Host.Cell) (a n b k v : Nat) (h : a + n ≤ b ∨ b + k ≤ a)
    (hm : Memory.wf m = true) : loadBytes (storeBytes m b k v) a n = loadBytes m a n := by
  have hp := ((Memory.wf_iff m).1 hm).1
  clear hm
  have hs : m.filter (fun c => decide (c.1 < b)) ++ (m.filter (fun c => !decide (c.1 < b))) = m := by
    induction m with
    | nil => rfl
    | cons x rest ih =>
      have hx := List.pairwise_cons.1 hp
      by_cases hb : x.1 < b
      · simpa [hb] using ih hx.2
      · have h1 : rest.filter (fun c => decide (c.1 < b)) = [] :=
          List.filter_eq_nil_iff.2 fun c hc => by have := hx.1 c hc; simp; omega
        have h2 : rest.filter (fun c => !decide (c.1 < b)) = rest :=
          List.filter_eq_self.2 fun c hc => by have := hx.1 c hc; simp; omega
        rw [List.filter_cons_of_neg (by simpa using hb), List.filter_cons_of_pos (by simpa using hb), h1, h2]
        rfl
  have h0 : (cellsOf b k v).filter (fun c => decide (a ≤ c.1) && decide (c.1 < a + n)) = [] := by
    refine List.filter_eq_nil_iff.2 fun c hc => ?_
    have := cellsOf_keys k b v c hc
    simp; omega
  have h1 : (m.filter (fun c => decide (b + k ≤ c.1))).filter (fun c => decide (a ≤ c.1) && decide (c.1 < a + n)) =
      (m.filter (fun c => !decide (c.1 < b))).filter (fun c => decide (a ≤ c.1) && decide (c.1 < a + n)) := by
    simp only [List.filter_filter]
    refine List.filter_congr fun c _ => ?_
    rw [Bool.eq_iff_iff]
    simp
    omega
  simp only [loadBytes]
  congr 1
  conv => rhs; rw [← hs]
  simp only [storeBytes, List.filter_append, h0, h1, List.append_nil]

/-- The cells of a write are in canonical form. -/
theorem cellsOf_wf (n : Nat) : ∀ (a v : Nat),
    (cellsOf a n v).Pairwise (fun c d => c.1 < d.1) ∧ ∀ c ∈ cellsOf a n v, c.2 ≠ emptyByte := by
  induction n with
  | zero => intro a v; simp [cellsOf]
  | succ n ih =>
    intro a v
    have h1 := ih (a + 1) (v / 256)
    have hk := cellsOf_keys n (a + 1) (v / 256)
    simp only [cellsOf]
    split
    · simpa using h1
    · rename_i hv
      refine ⟨?_, ?_⟩
      · simp only [List.singleton_append, List.pairwise_cons]
        exact ⟨fun d hd => by have := hk d hd; simp; omega, h1.1⟩
      · intro c hc
        simp only [List.singleton_append, List.mem_cons] at hc
        rcases hc with rfl | hc
        · exact hv
        · exact h1.2 c hc
/-- Every write keeps the canonical form of memory. -/
theorem Memory.wf_storeBytes (m : List Host.Cell) (a n v : Nat) (h : Memory.wf m = true) :
    Memory.wf (storeBytes m a n v) = true := by
  rw [Memory.wf_iff] at h ⊢
  have hc := cellsOf_wf n a v
  have hk := cellsOf_keys n a v
  refine ⟨?_, ?_⟩
  · simp only [storeBytes, List.pairwise_append, List.mem_append, List.mem_filter, decide_eq_true_eq]
    refine ⟨⟨h.1.filter _, hc.1, ?_⟩, h.1.filter _, ?_⟩
    · intro x hx y hy; have := hk y hy; omega
    · rintro x (hx | hx) y hy
      · omega
      · have := hk x hx; omega
  · intro c hc'
    simp only [storeBytes, List.mem_append, List.mem_filter] at hc'
    rcases hc' with (hc' | hc') | hc'
    · exact h.2 c hc'.1
    · exact hc.2 c hc'
    · exact h.2 c hc'.1
/-- Memory after reset is in canonical form. -/
theorem reset_memory_wf : Memory.wf State.reset.mem = true := rfl

end Sys2Proof.Machine
end

