-- ==== Sys2Proof/Laws/Ops.lean ====
section
/-! SUPPORT. Each shared operation once: what it can do, for the proofs about the meanings that call it. -/

namespace Sys2Proof.Machine

/-! Places. -/

/-- The context at a place after another has been set. -/
theorem State.ctx_setCtx (s : State) (l m : Nat) (c : Ctx) :
    (s.setCtx l c).ctx m = if m = l then c else s.ctx m := by
  by_cases hl : l = s.cur
  · subst hl
    by_cases hm : m = s.cur <;> simp [State.setCtx, State.ctx, hm]
  · by_cases hm : m = s.cur
    · have h2 : m ≠ l := fun h => hl (h ▸ hm)
      simp [State.setCtx, State.ctx, hl, hm]
      intro h; exact absurd h.symm hl
    · simp [State.setCtx, State.ctx, hl, hm, Table.get_set]
@[simp] theorem State.ctx_cur (s : State) : s.ctx s.cur = s.me := by simp [State.ctx]
@[simp] theorem State.setCtx_cur (s : State) (c : Ctx) : s.setCtx s.cur c = { s with me := c } := by
  simp [State.setCtx]
@[simp] theorem State.modCtx_cur (s : State) (f : Ctx → Ctx) : s.modCtx s.cur f = s.modMe f := by
  simp [State.modCtx, State.modMe]
@[simp] theorem State.setCtx_mem (s : State) (l : Nat) (c : Ctx) : (s.setCtx l c).mem = s.mem := by
  simp only [State.setCtx]; split <;> rfl
@[simp] theorem State.modCtx_mem (s : State) (l : Nat) (f : Ctx → Ctx) : (s.modCtx l f).mem = s.mem := by
  simp [State.modCtx]
@[simp] theorem State.setCtx_curEq (s : State) (l : Nat) (c : Ctx) : (s.setCtx l c).cur = s.cur := by
  simp only [State.setCtx]; split <;> rfl
@[simp] theorem State.actAs_mem (s : State) (l : Nat) : (s.actAs l).mem = s.mem := by
  simp only [State.actAs]; split <;> rfl
@[simp] theorem State.rotate_mem (s : State) : s.rotate.mem = s.mem := by
  simp only [State.rotate]; split <;> simp [State.modMe]
@[simp] theorem State.endCycle_mem (s : State) : s.endCycle.mem = s.mem := by
  simp only [State.endCycle]; split <;> simp
/-- Every context after reset is an idle one. -/
@[simp] theorem reset_ctx (l : Nat) : State.reset.ctx l = Ctx.reset := by
  by_cases h : l = 0 <;> simp [State.ctx, State.reset, h]
/-- The core at a place after another has been set. -/
theorem State.core_setCore (s : State) (k j : Nat) (c : Core) :
    (s.setCore k c).core j = if j = k then c else s.core j := by
  simp [State.core, State.setCore, Table.get_set]
theorem State.cluster_setCluster (s : State) (k j : Nat) (c : Cluster) :
    (s.setCluster k c).cluster j = if j = k then c else s.cluster j := by
  simp [State.cluster, State.setCluster, Table.get_set]
theorem State.line_setLine (s : State) (a b : Nat) (d : LineData) :
    (s.setLine a d).line b = if b / 64 = a / 64 then d else s.line b := by
  simp [State.line, State.setLine, Table.get_set]

/-! Results and slots. -/

/-- Inserting a result adds it and keeps the others. -/
@[simp] theorem mem_insertFlight (f g : Flight) (l : List Flight) : g ∈ insertFlight f l ↔ g = f ∨ g ∈ l := by
  induction l with
  | nil => simp [insertFlight]
  | cons h rest ih =>
    simp only [insertFlight]
    split
    · simp only [List.mem_cons, ih]
      exact ⟨fun x => x.elim (.inr ∘ .inl) fun y => y.elim .inl (.inr ∘ .inr),
        fun x => x.elim (.inr ∘ .inl) fun y => y.elim .inl (.inr ∘ .inr)⟩
    · simp
@[simp] theorem insertFlight_length (f : Flight) (l : List Flight) : (insertFlight f l).length = l.length + 1 := by
  induction l with
  | nil => rfl
  | cons h rest ih => simp only [insertFlight]; split <;> simp [ih]

/-- A result lands after its latency. -/
theorem lands_result (s : State) (slot lat : Nat) (w : RegWrite) : lands s (s.result slot lat w) lat w :=
  ⟨{ due := s.cycle + lat, slot := s.slotOr slot, born := s.cycle, w := w }, rfl, rfl, fun _ => mem_insertFlight _ _ _⟩
/-- Occupying a slot changes the slot of the acting core alone. -/
theorem slotHeld_occupy (s : State) (slot n : Nat) : slotHeld s (s.occupy slot n) slot n := by
  intro k
  simp only [State.occupy, State.core_setCore]
  split <;> simp_all

/-- In a bundle a meaning only hands its state on. -/
theorem settle_bundled (s t : State) (h : s.bundled) : settle s t = .next t := by
  have hm : s.issue.multi = true := h
  simp [settle, hm]

/-- A false guard. -/
theorem guarded_false (g : PReg) (s : State) (f : State → State) (h : s.pr g = false) : guarded g s f = s := by
  simp [guarded, h]
/-- A true guard. -/
theorem guarded_true (g : PReg) (s : State) (f : State → State) (h : s.pr g = true) : guarded g s f = f s := by
  simp [guarded, h]
@[simp] theorem State.pr_occupy (s : State) (slot n : Nat) (g : PReg) : (s.occupy slot n).pr g = s.pr g := rfl
@[simp] theorem State.slotOr_occupy (s : State) (slot n k : Nat) : (s.occupy slot n).slotOr k = s.slotOr k := rfl

/-- A meaning that occupies its slot and puts one result in flight. -/
theorem yields_of_result (s : State) (slot occ lat : Nat) (w : RegWrite) :
    yields (.next ((s.occupy slot occ).result slot lat w)) s slot occ lat w := by
  refine ⟨_, rfl, slotHeld_occupy s slot occ, ?_, ?_⟩
  · exact lands_result (s.occupy slot occ) slot lat w
  · rfl
/-- A scalar operation under a true guard: its result and nothing else. -/
theorem scalarOp_yields (occ lat : Nat) (g : PReg) (d : SReg) (v : Word) (po : Bool) (s : State) (h : s.bundled)
    (hg : s.pr g = true) : yields (scalarOp occ lat g d v po s) s 0 occ lat (.scalar d v po) := by
  rw [scalarOp, settle_bundled _ _ h, guarded_true _ _ _ (by simpa using hg)]
  exact yields_of_result s 0 occ lat _
/-- A scalar operation under a false guard. -/
theorem scalarOp_idles (occ lat : Nat) (g : PReg) (d : SReg) (v : Word) (po : Bool) (s : State) (h : s.bundled)
    (hg : s.pr g = false) : idles (scalarOp occ lat g d v po s) s 0 occ := by
  rw [scalarOp, settle_bundled _ _ h, guarded_false _ _ _ (by simpa using hg)]
  exact ⟨_, rfl, slotHeld_occupy s 0 occ, rfl⟩
/-- A predicate operation under a true guard. -/
theorem predOp_yields (lat : Nat) (g d : PReg) (v : Bool) (s : State) (h : s.bundled) (hg : s.pr g = true) :
    yields (predOp lat g d v s) s 0 1 lat (.pred d v) := by
  rw [predOp, settle_bundled _ _ h, guarded_true _ _ _ (by simpa using hg)]
  exact yields_of_result s 0 1 lat _
/-- A predicate operation under a false guard. -/
theorem predOp_idles (lat : Nat) (g d : PReg) (v : Bool) (s : State) (h : s.bundled) (hg : s.pr g = false) :
    idles (predOp lat g d v s) s 0 1 := by
  rw [predOp, settle_bundled _ _ h, guarded_false _ _ _ (by simpa using hg)]
  exact ⟨_, rfl, slotHeld_occupy s 0 1, rfl⟩
/-- A vector form whose format the tile fits. -/
theorem vecOp_yields (extra : Nat) (fmt : VFmt) (m : MGuard) (d : VReg) (l : List Nat) (s : State) (h : s.bundled)
    (hf : s.fmtFits fmt = true) :
    yields (vecOp extra fmt m d l s) s 2 s.beats (extra + s.beats) (tileWrite d s.es s.tileN (s.rg m) l) := by
  rw [vecOp, settle_bundled _ _ h, checkedV, if_pos hf]
  exact yields_of_result s 2 s.beats (extra + s.beats) _
/-- A trap of a syllable whose bundle has none yet: it is recorded. -/
theorem State.trapAt_eq (s : State) (slot cause sub : Nat) (addr : Word) (h : s.issue.trap = none) :
    s.trapAt slot cause sub addr = { s with issue := { s.issue with
      trap := some { cause := cause, sub := sub, slot := s.slotOr slot, addr := addr } } } := by
  simp [State.trapAt, h]
/-- A syllable that occupies its slot and traps. -/
theorem traps_occupy (s : State) (k n slot cause sub : Nat) (addr : Word) (h : s.issue.trap = none) :
    traps (.next ((s.occupy k n).trapAt slot cause sub addr)) s cause sub addr := by
  rw [State.trapAt_eq _ _ _ _ _ (by simpa using h)]
  exact ⟨_, rfl, rfl, _, rfl, rfl, rfl, rfl⟩
/-- A syllable that traps without occupying its slot. -/
theorem traps_trapAt (s : State) (slot cause sub : Nat) (addr : Word) (h : s.issue.trap = none) :
    traps (.next (s.trapAt slot cause sub addr)) s cause sub addr := by
  rw [State.trapAt_eq _ _ _ _ _ h]
  exact ⟨_, rfl, rfl, _, rfl, rfl, rfl, rfl⟩
/-- An engine form under a false guard. -/
theorem engineOp_idles (n : Nat) (g : PReg) (s : State) (f : State → State) (h : s.bundled) (hg : s.pr g = false) :
    idles (engineOp n g s f) s 8 n := by
  rw [engineOp, settle_bundled _ _ h, guarded_false _ _ _ (by simpa using hg)]
  exact ⟨_, rfl, slotHeld_occupy s 8 n, rfl⟩
/-- An engine form under a true guard. -/
theorem engineOp_true (n : Nat) (g : PReg) (s : State) (f : State → State) (h : s.bundled) (hg : s.pr g = true) :
    engineOp n g s f = .next (f (s.occupy 8 n)) := by
  rw [engineOp, settle_bundled _ _ h, guarded_true _ _ _ (by simpa using hg)]

/-! Memory through the shared writes. -/

@[simp] theorem State.post_mem (s : State) (a b c d : Nat) : (s.post a b c d).mem = s.mem := by
  obtain ⟨m, h⟩ := s.post_eq a b c d
  rw [h]
@[simp] theorem State.post_me (s : State) (a b c d : Nat) : (s.post a b c d).me = s.me := by
  obtain ⟨m, h⟩ := s.post_eq a b c d
  rw [h]
@[simp] theorem State.faultRecord_mem (s : State) (p l : Nat) : (s.faultRecord p l).mem = s.mem := by
  simp only [State.faultRecord, State.post_mem]
@[simp] theorem State.sramRead_mem (s : State) (pa : Nat) (e : Bool) (g : List Nat) : (s.sramRead pa e g).1.mem = s.mem := by
  obtain ⟨_, _, _, _, _, _, _, _, _, h⟩ := s.sramRead_only pa e g; rw [h]
@[simp] theorem State.sramWrite_mem (s : State) (pa n : Nat) (e : Bool) (m : BitVec 64) :
    (s.sramWrite pa n e m).mem = s.mem := by
  obtain ⟨_, _, _, _, _, _, _, _, h⟩ := s.sramWrite_only pa n e m; rw [h]
/-- A fold of steps that leave memory alone. -/
theorem foldl_mem {α : Type} (f : State → α → State) (hf : ∀ s a, (f s a).mem = s.mem) (l : List α) :
    ∀ s : State, (l.foldl f s).mem = s.mem := by
  induction l with
  | nil => intro s; rfl
  | cons a l ih => intro s; rw [List.foldl_cons, ih, hf]
@[simp] theorem State.portUsed_mem (s : State) (pa : Nat) : (s.portUsed pa).mem = s.mem := rfl
@[simp] theorem State.portRead_mem (s : State) (pa : Nat) (g : List Nat) : (s.portRead pa g).1.mem = s.mem := by
  simp [State.portRead]
/-- A read through an engine port: a read of the stacked layers after which the port finds what the cores have written. -/
theorem State.portRead_only (s : State) (pa : Nat) (g : List Nat) :
    ∃ n x, stackOnly { s with freeCount := n, early := x } (s.portRead pa g).1 := by
  obtain ⟨n, _, _, _, _, _, _, _, _, h⟩ := s.sramRead_only pa true g
  exact ⟨n, _, _, _, _, _, _, _, _, _, by simp only [State.portRead, State.portUsed, h]; rfl⟩
@[simp] theorem State.keepLate_mem (s : State) (pa n l : Nat) (m : BitVec 64) (e : Option Bool) :
    (s.keepLate pa n l m e).mem = s.mem := rfl
/-- A write through an engine port writes its bytes and no others. -/
@[simp] theorem State.engineWrite_mem (s : State) (pa n v : Nat) (e : Option Bool) (m : BitVec 64) :
    (s.engineWrite pa n v e m).mem = storeBytes s.mem pa n v := rfl
@[simp] theorem State.writePoison_mem (s : State) (pa : Nat) (e : Bool) (p : Option Bool) :
    (s.writePoison pa e p).mem = s.mem := by
  simp only [State.writePoison]
  repeat' split
  all_goals rfl
/-! The caches leave memory alone (R156 to R158, R175). -/

@[simp] theorem State.l2Room_mem (s : State) (t : Nat) : (s.l2Room t).mem = s.mem := by
  simp only [State.l2Room]
  split
  · rfl
  · split <;> rfl
@[simp] theorem State.l2Fill_mem (s : State) (e pa : Nat) : (s.l2Fill e pa).mem = s.mem := by
  simp only [State.l2Fill]
  repeat' split
  all_goals simp
@[simp] theorem State.l2Mark_mem (s : State) (line : Nat) (d : Bool) : (s.l2Mark line d).mem = s.mem := rfl
@[simp] theorem State.l1Give_mem (s : State) (p : L1Copy → Bool) : (s.l1Give p).mem = s.mem := by
  rw [State.l1Give, foldl_mem _ fun _ _ => by simp]
@[simp] theorem State.recall_mem (s : State) (line : Nat) : (s.recall line).mem = s.mem := s.l1Give_mem _
@[simp] theorem State.l1Drop_mem (s : State) (k line : Nat) : (s.l1Drop k line).mem = s.mem := s.l1Give_mem _
@[simp] theorem State.l1Room_mem (s : State) (k : Nat) : (s.l1Room k).mem = s.mem := by
  simp only [State.l1Room]
  repeat' split
  all_goals simp
@[simp] theorem State.l1Fill_mem (s : State) (k : L1Copy) : (s.l1Fill k).mem = s.mem := by simp [State.l1Fill]
@[simp] theorem State.countRead_mem (s : State) (pa : Nat) : (s.countRead pa).mem = s.mem := by
  simp only [State.countRead]
  repeat' split
  all_goals rfl
@[simp] theorem State.prefill_mem (s : State) (k e pa : Nat) : (s.prefill k e pa).mem = s.mem := by
  simp only [State.prefill]; split <;> rfl
@[simp] theorem State.count_mem (s : State) : s.count.mem = s.mem := rfl
/-- A read at a home changes no byte. -/
@[simp] theorem State.homeLoad_mem (s : State) (core : Option Nat) (pts : Word) (e pa : Nat) (g : List Nat) :
    (s.homeLoad core pts e pa g).s.mem = s.mem := by
  simp only [State.homeLoad]
  cases core <;> cases cacheable pa <;> simp
/-- A load of a line changes no byte. -/
@[simp] theorem State.lineLoad_mem (s : State) (core : Nat) (pts : Word) (e pa : Nat) (g : List Nat) :
    (s.lineLoad core pts e pa g).s.mem = s.mem := by
  simp only [State.lineLoad]
  repeat' split
  all_goals simp
@[simp] theorem State.ownLine_mem (s : State) (core e pa : Nat) : (s.ownLine core e pa).mem = s.mem := by
  simp only [State.ownLine]; split <;> simp
/-- A write at a home writes its bytes and no others. -/
@[simp] theorem State.homeWrite_mem (s : State) (pts : Word) (pa n val : Nat) (e : Option Bool) (m : BitVec 64) :
    (s.homeWrite pts pa n val e m).1.mem = storeBytes s.mem pa n val := by
  simp only [State.homeWrite]
  split <;> simp
@[simp] theorem State.readLines_mem (s : State) (l g : List Nat) : (s.readLines l g).mem = s.mem := by
  rw [State.readLines, foldl_mem _ fun _ _ => by simp]
/-- Reads of lines through engine ports change the stacked layers and what the ports keep, and nothing else. -/
theorem State.readLines_only (l g : List Nat) :
    ∀ s : State, ∃ n x, stackOnly { s with freeCount := n, early := x } (s.readLines l g) := by
  induction l with
  | nil => exact fun s => ⟨_, _, stackOnly.refl s⟩
  | cons a l ih =>
    intro s
    obtain ⟨n, x, h⟩ := s.portRead_only (64 * a) g
    obtain ⟨m, y, h'⟩ := ih (s.portRead (64 * a) g).1
    obtain ⟨_, _, _, _, _, _, _, _, h⟩ := h
    exact ⟨m, y, stackOnly.trans ⟨_, _, _, _, _, _, _, _, by rw [h]⟩ h'⟩
/-- A store at a home writes its bytes and no others. -/
@[simp] theorem State.lineStore_mem (s : State) (pts : Word) (wid : Option (BitVec 16)) (e pa n val : Nat)
    (setP clrP : Bool) (m : BitVec 64) :
    (s.lineStore pts wid e pa n val setP clrP m).1.mem = storeBytes s.mem pa n val := by
  simp [State.lineStore]
/-- A fold of steps that keep the form of memory. -/
theorem foldl_wf {α : Type} (f : State → α → State)
    (hf : ∀ s a, Memory.wf s.mem = true → Memory.wf (f s a).mem = true) (l : List α) :
    ∀ s : State, Memory.wf s.mem = true → Memory.wf (l.foldl f s).mem = true := by
  induction l with
  | nil => intro s h; exact h
  | cons a l ih => intro s h; exact ih _ (hf s a h)
@[simp] theorem State.wake_mem (s : State) (p : Nat → Ctx → Option WaitEnd) : (s.wake p).mem = s.mem := by
  refine foldl_mem _ (fun s l => ?_) _ s
  simp only
  split <;> simp
/-- Marking regions dirty leaves memory alone. -/
@[simp] theorem State.markDirty_mem (s : State) (c b o n : Nat) : (s.markDirty c b o n).mem = s.mem := by
  simp only [State.markDirty]
  refine foldl_mem _ (fun s l => ?_) _ s
  split <;> simp
@[simp] theorem State.keepEarly_mem (s : State) (l : List Nat) : (s.keepEarly l).mem = s.mem := rfl
/-- A core port writes its bytes and no others, where no engine port has written in the same cycle (R152). -/
@[simp] theorem State.coreWrite_mem (s : State) (pa n v : Nat) (h : s.late = []) :
    (s.coreWrite pa n v).mem = storeBytes s.mem pa n v := by
  simp [State.coreWrite, State.coreMem, h]
/-- A bank write writes its bytes and no others; through a core port, where no engine port has written in the cycle. -/
@[simp] theorem State.bankWrite_mem (s : State) (c b o n v : Nat) (p k e : Bool) (h : e = true ∨ s.late = []) :
    (s.bankWrite c b o n v p k e).mem = storeBytes s.mem (scratchPa c b o) n v := by
  simp only [State.bankWrite, State.markDirty_mem]
  rw [foldl_mem _ (fun s i => by split <;> simp)]
  split <;> simp_all

/-! What is read of a state stays as it is when a slot is held. -/

theorem chase_occupy (s : State) (k n : Nat) (root va : Word) (a : Access) (u : Bool) :
    chase (s.occupy k n) root va a u = chase s root va a u := rfl
theorem State.peekLine_occupy (s : State) (k n : Nat) (j : Job) (va : Word) (m : Nat) :
    (s.occupy k n).peekLine j va m = s.peekLine j va m := rfl
theorem State.peek_occupy (s : State) (k n : Nat) (j : Job) :
    ∀ fuel va m, State.peek (s.occupy k n) j fuel va m = State.peek s j fuel va m := by
  intro fuel
  induction fuel with
  | zero => exact fun _ _ => rfl
  | succ f ih => intro va m; simp only [State.peek, ih, State.peekLine_occupy]
theorem State.recordAhead_occupy (s : State) (k n : Nat) (j : Job) : (s.occupy k n).recordAhead j = s.recordAhead j := by
  simp only [State.recordAhead, State.peek_occupy]
theorem State.collCheck_occupy (s : State) (k n : Nat) (j : Job) (r : Nat) : (s.occupy k n).collCheck j r = s.collCheck j r := rfl
theorem State.footAhead_occupy (s : State) (k n : Nat) (j : Job) : (s.occupy k n).footAhead j = s.footAhead j := by
  simp only [State.footAhead, State.recordAhead_occupy]
theorem State.awaitsJob_occupy (s : State) (k n : Nat) (i j : Job) : (s.occupy k n).awaitsJob i j = s.awaitsJob i j := by
  simp only [State.awaitsJob, State.footAhead_occupy]
theorem State.groupCheck_occupy (s : State) (k n r : Nat) (g : List Nat) (p : Job → Bool) :
    (s.occupy k n).groupCheck r g p = s.groupCheck r g p := rfl
theorem State.tileAhead_occupy (s : State) (k n : Nat) (j : Job) (pa : Nat) :
    (s.occupy k n).tileAhead j pa = s.tileAhead j pa := by
  have h : (s.occupy k n).awaitsJob j = s.awaitsJob j := funext fun i => s.awaitsJob_occupy k n j i
  simp only [State.tileAhead, State.recordAhead_occupy, State.peek_occupy, State.collCheck_occupy,
    State.groupCheck_occupy, h]
theorem State.counterAhead_occupy (s : State) (k n work pa before : Nat) :
    (s.occupy k n).counterAhead work pa before = s.counterAhead work pa before := by
  simp only [State.counterAhead, State.tileAhead_occupy, State.occupy_jobs]
theorem State.planeCounter_occupy (s : State) (k n pa : Nat) : (s.occupy k n).planeCounter pa = s.planeCounter pa := rfl

/-! Breaches of the rules on the data of collectives (R11, R274). -/

/-- Where no COLL is in flight a store breaks no rule. -/
theorem State.breachesOf_nil (s : State) (pa n : Nat) (m : BitVec 64) (h : ∀ j ∈ s.jobs, ∀ r c, j.kind ≠ .coll r c) :
    s.breachesOf pa n m = [] := by
  rw [State.breachesOf, List.flatMap_eq_nil_iff]
  intro j hj
  split
  · exact absurd ‹_› (h j hj _ _)
  · exact absurd ‹_› (h j hj _ _)
  all_goals rfl
@[simp] theorem State.engineWrite_breaches (s : State) (pa n v : Nat) (e : Option Bool) (m : BitVec 64) :
    (s.engineWrite pa n v e m).breaches = s.breaches ++ s.breachesOf pa n m := by
  obtain ⟨_, _, h⟩ := s.engineWrite_eq pa n v e m; rw [h]
@[simp] theorem State.coreWrite_breaches (s : State) (pa n v : Nat) :
    (s.coreWrite pa n v).breaches = s.breaches ++ s.breachesOf pa n (BitVec.allOnes 64) := rfl

/-- To pardon breaches changes the breaches and nothing else, and adds none. -/
theorem State.pardon_eq (t : State) (b : List Breach) (p : Job → Bool) :
    ∃ l, t.pardon b p = { t with breaches := l } ∧ ∀ x ∈ l, x ∈ t.breaches :=
  ⟨_, rfl, fun _ h => (List.mem_filter.1 h).1⟩
/-- A breach that stood before the write stays. -/
theorem State.pardon_keeps (t : State) (b : List Breach) (p : Job → Bool) (x : Breach) (h : x ∈ t.breaches) (hb : x ∈ b) :
    x ∈ (t.pardon b p).breaches :=
  List.mem_filter.2 ⟨h, by simp [hb]⟩
@[simp] theorem State.forgive_mem (t s : State) (j : Job) : (t.forgive j s).mem = t.mem := rfl
@[simp] theorem State.forgiveWork_mem (t s : State) (w : Nat) : (t.forgiveWork w s).mem = t.mem := rfl

/-! Engine reads leave jobs, task records and memory alone. -/

/-- Jobs, the records of slots and memory are as they were. -/
def leavesJobs (s t : State) : Prop := t.jobs = s.jobs ∧ t.slotRecords = s.slotRecords ∧ t.mem = s.mem
theorem leavesJobs.refl (s : State) : leavesJobs s s := ⟨rfl, rfl, rfl⟩
theorem leavesJobs.trans {s t u : State} (h : leavesJobs s t) (h' : leavesJobs t u) : leavesJobs s u :=
  ⟨h'.1.trans h.1, h'.2.1.trans h.2.1, h'.2.2.trans h.2.2⟩
theorem foldl_leavesJobs {α : Type} (f : State → α → State) (hf : ∀ s a, leavesJobs s (f s a)) (l : List α) :
    ∀ s : State, leavesJobs s (l.foldl f s) := by
  induction l with
  | nil => exact leavesJobs.refl
  | cons a l ih => exact fun s => (hf s a).trans (ih _)
theorem State.portRead_leavesJobs (s : State) (pa : Nat) (g : List Nat) : leavesJobs s (s.portRead pa g).1 := by
  obtain ⟨_, _, _, _, _, _, _, _, _, _, h⟩ := s.portRead_only pa g
  exact ⟨by rw [h], by rw [h], by rw [h]⟩
theorem State.readLines_leavesJobs (s : State) (l g : List Nat) : leavesJobs s (s.readLines l g) := by
  obtain ⟨_, _, _, _, _, _, _, _, _, _, h⟩ := State.readLines_only l g s
  exact ⟨by rw [h], by rw [h], by rw [h]⟩
theorem State.recall_leavesJobs (s : State) (line : Nat) : leavesJobs s (s.recall line) := by
  exact foldl_leavesJobs _ (fun t k => by exact ⟨rfl, rfl, rfl⟩) _ _
theorem State.l2Fill_leavesJobs (s : State) (e pa : Nat) : leavesJobs s (s.l2Fill e pa) := by
  simp only [State.l2Fill, State.l2Room]
  repeat' split
  all_goals exact ⟨rfl, rfl, rfl⟩
theorem State.countRead_leavesJobs (s : State) (pa : Nat) : leavesJobs s (s.countRead pa) := by
  simp only [State.countRead]
  repeat' split
  all_goals exact ⟨rfl, rfl, rfl⟩
theorem State.engineLoad_leavesJobs (s : State) (pts : Word) (c : Chased) : leavesJobs s (s.engineLoad pts c).s := by
  have h : leavesJobs s ((s.readLines c.tables).homeLoad none (wmax pts c.seen) c.x.e c.x.pa).s := by
    refine (s.readLines_leavesJobs c.tables s.retired).trans ?_
    simp only [State.homeLoad]
    refine leavesJobs.trans ?_ ((State.recall_leavesJobs _ _).trans ((State.l2Fill_leavesJobs _ _ _).trans (State.countRead_leavesJobs _ _)))
    cases cacheable c.x.pa
    · exact (State.portRead_leavesJobs _ _ _).trans ⟨rfl, rfl, rfl⟩
    · exact ⟨rfl, rfl, rfl⟩
  simp only [State.engineLoad]
  split
  · exact h.trans ⟨rfl, rfl, rfl⟩
  · exact h
/-- An engine read, and one that stops, leave them alone. -/
theorem State.engineRead_leavesJobs (root : Word) (user : Bool) : ∀ fuel s pts va n,
    Sum.elim (fun r => leavesJobs s r.1) (fun r => leavesJobs s r.1) (State.engineRead root user fuel s pts va n) := by
  intro fuel
  induction fuel with
  | zero => exact fun s _ _ _ => leavesJobs.refl s
  | succ f ih =>
    intro s pts va n
    unfold State.engineRead
    split
    · exact leavesJobs.refl s
    · cases h : s.jobChase root user va .read with
      | inr st => exact s.readLines_leavesJobs _ _
      | inl c =>
        have hr := ih (s.engineLoad pts c).s (s.engineLoad pts c).pts (va + BitVec.ofNat 64 (Nat.min n (64 - va.toNat % 64)))
          (n - Nat.min n (64 - va.toNat % 64))
        have hl := s.engineLoad_leavesJobs pts c
        dsimp only
        split <;> rename_i h' <;> rw [h'] at hr <;> exact hl.trans hr

/-! The link toward the root. -/

/-- Link 0 leads to the root where it alone is aligned and it leads below this module. -/
theorem State.rootLink_of_only {s : State} (aligns : (s.link 0).aligns = true)
    (below : (s.link 0).leads < s.module.toNat) (alone : ∀ i : Fin 12, i ≠ 0 → (s.link i).aligns = false) :
    s.rootLink = some 0 := by
  have rest (i : Nat) (hi : i ∈ (List.range 12).drop 1) : (s.link (Fin.ofNat 12 i)).aligns = false :=
    alone _ (by revert i; decide)
  unfold State.rootLink
  rw [show List.range 12 = 0 :: (List.range 12).drop 1 from rfl, List.foldl_cons, show Fin.ofNat 12 0 = 0 from rfl]
  simp only [aligns, Nat.not_le.2 below, Bool.not_true, decide_false, Bool.or_self, Bool.false_eq_true, if_false]
  generalize (List.range 12).drop 1 = is at rest
  induction is with
  | nil => rfl
  | cons i is ih =>
    rw [List.foldl_cons]
    simp only [rest i (List.mem_cons_self ..), Bool.not_false, Bool.true_or, if_true]
    exact ih fun j hj => rest j (List.mem_cons_of_mem _ hj)

end Sys2Proof.Machine
end

