-- ==== Sys2Proof/Tests/Slice0.lean ====
section
/-! SUPPORT. Tests: what WellFormed refuses, the manual's example words, single steps on small states, and a witness for the
hypotheses of every obligation. -/

namespace Sys2Proof.Tests

open Sys2Proof.Machine

section

/-! The checks run one after another, which keeps their memory small. -/
set_option Elab.async false

/-! WellFormed: one ill-formed term for each check. The bounds are those of a field with two X syllables (R37, R49). -/

theorem test_illformed_scalar : ∀ i ∈ ([.fcvt 1 2 .f16F32 .rs true 0, .addi 1 2 (2 ^ 64), .andi 1 2 (2 ^ 64),
    .ori 1 2 (-2 ^ 64 - 1), .xori 1 2 (2 ^ 64), .li 1 (2 ^ 64), .lih 1 (2 ^ 64), .chk 1 (2 ^ 64), .loop 1 0,
    .loop 1 (2 ^ 65), .loopi 1 0, .loopi 1 (2 ^ 65), .cmpiEq 1 2 (2 ^ 64), .cmpiNe 1 2 (2 ^ 64), .cmpiLt 1 2 (2 ^ 64),
    .cmpiLe 1 2 (2 ^ 64), .cmpiLtu 1 2 (2 ^ 64), .cmpiLeu 1 2 (2 ^ 64), .br true 1 (2 ^ 72), .j (-2 ^ 72 - 1),
    .call (2 ^ 72), .fcvt 1 2 .i64F32 .rne true 0, .fcvt 1 2 .f32I64 .rne true 0, .fcvt 1 2 .i32F32 .rne true 0,
    .fcvt 1 2 .f32F16 .rz false 0, .fcvt 1 2 .f32Bf16 .rne true 0] : List Instr).tail,
    i.wellFormed = false := by decide
theorem test_illformed_memory : ∀ i ∈ ([.ldI8 1 2 (2 ^ 64), .ldU8 1 2 (2 ^ 64), .ldI16 1 2 (2 ^ 64), .ldI32 1 2 (2 ^ 64),
    .ldI64 1 2 (-2 ^ 64 - 1), .pref 2 (2 ^ 64), .flush 2 (2 ^ 64), .ldsI8 1 2 (2 ^ 64), .ldsU8 1 2 (2 ^ 64),
    .ldsI16 1 2 (2 ^ 64), .ldsI32 1 2 (2 ^ 64), .ldsI64 1 2 (2 ^ 64), .stI8 1 2 (2 ^ 64), .stI16 1 2 (2 ^ 64),
    .stI32 1 2 (2 ^ 64), .stI64 1 2 (2 ^ 64), .ldv 1 2 3 (2 ^ 61), .stv 1 2 3 (2 ^ 61)] : List Instr),
    i.wellFormed = false := by decide
theorem test_illformed_atomics : ∀ i ∈ ([.amoAddI64 1 2 (2 ^ 64), .amoAndI64 1 2 (2 ^ 64), .amoOrI64 1 2 (2 ^ 64),
    .amoXorI64 1 2 (2 ^ 64), .amoMinI64 1 2 (2 ^ 64), .amoMaxI64 1 2 (2 ^ 64), .amoSwapI64 1 2 (2 ^ 64),
    .amoCasI64 1 2 (2 ^ 64), .amoCasI64 63 2 0, .amoAddI32 1 2 (2 ^ 64), .amoAndI32 1 2 (2 ^ 64), .amoOrI32 1 2 (2 ^ 64),
    .amoXorI32 1 2 (2 ^ 64), .amoMinI32 1 2 (2 ^ 64), .amoMaxI32 1 2 (2 ^ 64), .amoSwapI32 1 2 (2 ^ 64),
    .amoCasI32 1 2 (2 ^ 64), .amoCasI32 63 2 0, .vrngCo 1 63 0] : List Instr), i.wellFormed = false := by decide
theorem test_illformed_banks : ∀ i ∈ ([.sldI8 1 2 (2 ^ 65), .sldU8 1 2 (2 ^ 65), .sldI16 1 2 (2 ^ 65), .sldI32 1 2 (2 ^ 65),
    .sldI64 1 2 (2 ^ 65), .sstI8 1 2 (2 ^ 65), .sstI16 1 2 (2 ^ 65), .sstI32 1 2 (2 ^ 65), .sstI64 1 2 (2 ^ 65),
    .sldv 1 2 (2 ^ 65), .sstv 1 2 (2 ^ 65), .sldt 1 2 (2 ^ 65), .slds 1 2 (2 ^ 65), .sldI8Regoff 1 2 3 (2 ^ 59),
    .sldU8Regoff 1 2 3 (2 ^ 59), .sldI16Regoff 1 2 3 (2 ^ 59), .sldI32Regoff 1 2 3 (2 ^ 59), .sldI64Regoff 1 2 3 (2 ^ 59),
    .sstI8Regoff 1 2 3 (2 ^ 59), .sstI16Regoff 1 2 3 (2 ^ 59), .sstI32Regoff 1 2 3 (2 ^ 59), .sstI64Regoff 1 2 3 (2 ^ 59),
    .sldvRegoff 1 2 3 (2 ^ 59), .sstvRegoff 1 2 3 (2 ^ 59), .sldtRegoff 1 2 3 (2 ^ 59), .sldsRegoff 1 2 3 (2 ^ 59)] :
    List Instr), i.wellFormed = false := by decide
/-- The largest values of the fields are well-formed. -/
theorem test_wellformed_edges : ∀ i ∈ ([.fcvt 1 2 .f16F32 .rs true 0, .addi 1 2 (2 ^ 64 - 1), .addi 1 2 (-2 ^ 64),
    .loop 1 (2 ^ 65 - 1), .ldv 1 2 3 (2 ^ 61 - 1), .sldI8Regoff 1 2 3 (2 ^ 59 - 1), .br true 1 (-2 ^ 72), .amoCasI64 62 2 0,
    .vrngCo 1 62 0] : List Instr), i.wellFormed = true := by decide

/-! Example words of the manual's instruction entries. -/

theorem test_words_scalar : ∀ e ∈ ([(0x80050210, .add 10 1 2 0), (0x8043904A, .and 7 8 9 2), (0x80838A30, .xor 7 5 6 0),
    (0x81838A30, .rem 7 5 6 0), (0x816A0210, .div 20 1 2 0), (0x81E38A32, .sel 7 5 6 2), (0x82028C00, .clz 5 6 0),
    (0x82238A00, .popc 7 5 0), (0x82438A30, .ext 7 5 6 0), (0x82808498, .plog 1 2 .xor 3 0), (0x83AA0000, .tsread 20 0),
    (0x88858001, .li 11 1), (0x88A2807F, .lih 5 127), (0x8872BE01, .xori 37 31 1), (0x884BAE7F, .ori 23 23 127),
    (0x84418828, .cmpLt 3 4 5 0), (0x8A008C00, .cmpiEq 1 6 0)] :
    List (Nat × Instr)), decodeTableWord 32 e.1 = some e.2 := by decide
theorem test_words_float : ∀ e ∈ ([(0x82A60620, .fadd 12 3 4 0), (0x82C60620, .fmul 12 3 4 0), (0x82E48620, .ffma 9 3 4 0),
    (0x83210A30, .fcmpLt 2 5 6 0), (0x83839160, .fcvt 7 8 .bf16F32 .rs false 0), (0x83828C00, .fcvt 5 6 .i64F32 .rne false 0)] :
    List (Nat × Instr)), decodeTableWord 32 e.1 = some e.2 := by decide
theorem test_words_control : ∀ e ∈ ([(0x89405E05, .loop 47 5), (0x89601003, .loopi 8 3), (0x85400000, .eret 0), (0x83C07E00, .jr 63 0),
    (0x83E00000, .ret 0), (0x88E0180C, .chk 12 12), (0x8C200040, .j 64), (0x8C13FFFE, .br true 1 (-2)), (0x88C00007, .trap 7),
    (0x890B8010, .sysr 23 .ctxid), (0x89203840, .sysw 28 .fatab)] :
    List (Nat × Instr)), decodeTableWord 32 e.1 = some e.2 := by decide
theorem test_words_vector : ∀ e ∈ ([(0x900110C0, .vadd 1 2 3 .f32 0), (0x902110C0, .vsub 1 2 3 .f32 0), (0x904110C0, .vmul 1 2 3 .f32 0),
    (0x906110C0, .vfma 1 2 3 .f32 0), (0x908110C0, .vmax 1 2 3 .f32 0), (0x90A110C0, .vmin 1 2 3 .f32 0),
    (0x90C11000, .vabs 1 2 .f32 0), (0x90E11000, .vneg 1 2 .f32 0), (0x910110C0, .vand 1 2 3 .f32 0),
    (0x912110C0, .vor 1 2 3 .f32 0), (0x914110C0, .vxor 1 2 3 .f32 0), (0x916110E8, .vshl 1 2 3 .i32 0),
    (0x918110E8, .vshr 1 2 3 .i32 0), (0x91A110C4, .vsel 1 2 3 .f32 4), (0x91C11000, .vmov 1 2 .f32 0),
    (0x91E11088, .vcvt 1 2 false .rs .bf16 0), (0x924110C0, .vcmpLt 1 2 3 .f32 0)] :
    List (Nat × Instr)), decodeTableWord 32 e.1 = some e.2 := by decide
theorem test_words_vector_more : ∀ e ∈ ([(0x92811000, .vred 1 2 .add .f32 0), (0x92811040, .vred 1 2 .max .f32 0),
    (0x92A11000, .vredc 1 2 .add .f32 0), (0x92C11000, .vscan 1 2 .add .f32 0), (0x92E11000, .vtrans 1 2 .f32 0),
    (0x930110E8, .vperm 1 2 3 .i32 0), (0x932110C0, .vpack 1 2 .rne .o4 .f32 0), (0x93411008, .vunpk 1 2 .rne .e2m1 .bf16 0),
    (0x9365202A, .vexpd 5 4 .i32 2), (0x93811000, .vpush true 2 .f32), (0x93A32140, .mlog 3 4 5 .and 0),
    (0x940100A0, .vbcast 1 5 0), (0x94210000, .viota 1 0 0), (0x94410280, .vrngCo 1 20 0), (0x94410288, .vrngLc 1 20 0),
    (0x946418E2, .vcomp 4 3 7 2), (0x94800120, .vshape 9), (0x94A018E2, .mpop 3 7 2)] :
    List (Nat × Instr)), decodeTableWord 32 e.1 = some e.2 := by decide
theorem test_words_special : ∀ e ∈ ([(0xA010D000, .sfrcp 2 3 2 .f32 0), (0xA6299A40, .sfsin 5 6 3 .bf16 1)] :
    List (Nat × Instr)), decodeTableWord 32 e.1 = some e.2 := by decide
theorem test_words_memory : ∀ e ∈ ([(0xB463882B, .ldI32Index 7 4 5 3), (0xB0850204, .ldI64 10 1 4), (0xB1860801, .ldsI64 12 4 1),
    (0xB28428C2, .ldv 4 10 3 2), (0xB2A428C2, .stv 4 10 3 2), (0xB643882B, .stI32Index 7 4 5 3), (0xB2628801, .stI64 5 4 1),
    (0xB0C00801, .flush 4 1), (0xB0A00802, .pref 4 2), (0xB4A00828, .prefIndex 4 5 0), (0xB2C428E5, .vgather 4 10 3 true 5),
    (0xB2E428C5, .vscatter 4 10 3 false 5), (0xB3028800, .amoAddI64 5 4 0), (0xB7E30804, .amoCasI32 6 4 4)] :
    List (Nat × Instr)), decodeTableWord 32 e.1 = some e.2 := by decide
theorem test_words_banks : ∀ e ∈ ([(0xBC7B12B0, .sldI32Regoff 54 9 22 0), (0xB88A0A02, .sldI64 20 5 2), (0xBA619801, .slds 3 12 1),
    (0xBA431820, .sldt 6 12 32), (0xBA021810, .sldv 4 12 16), (0xBD6A10B0, .sstI64Regoff 20 8 22 0), (0xBA221810, .sstv 4 12 16)] :
    List (Nat × Instr)), decodeTableWord 32 e.1 = some e.2 := by decide
theorem test_words_engine : ∀ e ∈ ([(0xC0059400, .cpy 11 10 0), (0xC0206A10, .cegeo 0 53 1 0), (0xC0520008, .fapar 36 0 1 0),
    (0xC0621022, .facall 33 2 .f16), (0xC062C010, .facall 44 1 .dynamic), (0xC0800000, .fawait 0), (0xC0BA0000, .fastat 52 0),
    (0xC0C00018, .fafmt false .e4m3 0), (0xC0EA2A00, .fampw 20 21 0), (0xC1A49420, .bankgive 9 10 4 0),
    (0xC20A2A40, .spawn 20 21 1 0), (0xC20A0008, .spawnJoin 20 0), (0xC22A2A00, .task 20 21 0), (0xC24A0018, .tdep 20 3 0),
    (0xC2628000, .gang 5), (0xC2B50000, .tswait 42 0), (0xC30A2A00, .smap 20 21 0), (0xC324A800, .sunmap 9 20 0),
    (0xC344A800, .swb 9 20 0), (0xC3621200, .preq 4 9 0)] :
    List (Nat × Instr)), decodeTableWord 32 e.1 = some e.2 := by decide
theorem test_words_engine_more : ∀ e ∈ ([(0xC38A2A00, .reloc 20 21 0), (0xC3AAD600, .msweep 21 43 0), (0xC3CA2A00, .rsgo 20 21 0),
    (0xC3EB2800, .rsprog 22 20 0), (0xC4009C00, .coll 1 14 0), (0xC42F1400, .pcnt 30 10 0), (0xC4450040, .pwait 10 8 0),
    (0xC4650401, .pcancel 10 2 1), (0xC4A00000, .tlbinvAll 0), (0xC4A20A08, .tlbinvVa 4 5 0), (0xC4A20010, .tlbinvAs 4 0)] :
    List (Nat × Instr)), decodeTableWord 32 e.1 = some e.2 := by decide
/-- A reserved rounding, an unassigned op and an X syllable in class 0b101 decode to nothing (R52). -/
theorem test_words_refused : ∀ w ∈ ([0x83838C30, 0x9FE00000, 0xD0000001] : List Nat), decodeTableWord 32 w = none := by
  decide
/-- The worked encoding of three syllables: slots S0, S1 and M1, and the immediate 1000 from one X syllable. -/
theorem test_worked_bundle : decodeBundle false [0x00050213, 0x080585E8, 0x50000001, 0x3A021810] =
    { syls := [(0, .add 10 1 2 3), (1, .addi 11 2 1000), (7, .sldv 4 12 16)], errs := [] } := by decide
/-- The encoder writes the X syllable of `ANDI s21, s20, -4096`. -/
theorem test_encode_x : encode (.andi 21 20 (-4096)) = [0x082AA800, 0x5FFFFFF8] := by decide

/-! Small states. -/

/-- A syllable in a bundle of the first context after reset; p0 is true, the other predicates false. -/
def tb : State := { State.reset with issue := { Issue.none with multi := true } }
/-- The same in privileged mode. -/
def tbPriv : State := { tb with me := { tb.me with priv := true } }
/-- A bundle of `n` syllables that settles itself. -/
def ta (n : Nat) : State := { State.reset with issue := { Issue.none with len := n } }
/-- Scalar registers hold what a list gives. -/
def withRegs (l : List (SReg × Word)) (s : State) : State :=
  { s with me := { s.me with regs := { s.me.regs with s := l.foldl (fun v e => v.set e.1 e.2) s.me.regs.s } } }
/-- Virtual [0, 1 GiB) is physical [0, 1 GiB) for the user, in home 0; every bank is owned. -/
def tm : State :=
  { tb with mem := placeTables [], me := { tb.me with ptroot := 0x10000000#64, banks := BitVec.allOnes 64 } }
/-- The same with a page at 2 GiB that only privileged code reaches. -/
def tmGuarded : State :=
  { tm with mem := storeBytes tm.mem 0x10002010 8 (2 ^ 63 + 2 ^ 62 + 2 ^ 57 + (2 ^ 17 - 1) * 2 ^ 12 + 2 ^ 11) }
/-- The same as `tm` with movable pages. -/
def tmMovable : State :=
  let leaf := 2 ^ 63 + 2 ^ 62 + 2 ^ 58 + 2 ^ 57 + 2 ^ 56 + 2 ^ 55 + 2 ^ 54 + (2 ^ 17 - 1) * 2 ^ 12 + 2 ^ 11
  { tm with mem := storeBytes tm.mem 0x10002000 8 leaf }
/-- The first result in flight after an instruction. -/
def landed (o : Host.Outcome State Fault Refusal) : Option RegWrite :=
  match o with
  | .next t => t.me.inflight.head?.map (·.w)
  | _ => none
/-- A condition on the next state. -/
def after (o : Host.Outcome State Fault Refusal) (f : State → Bool) : Bool :=
  match o with
  | .next t => f t
  | _ => false

/-! Single steps; the expected values are the manual's examples, or worked out by hand from its rules. -/

/-- R300's example: field [7:4] of 0xA5F0, with sign extension and without. -/
theorem test_ext : landed (exec (.ext 7 5 6 0) (withRegs [(5, 0xA5F0#64), (6, 0x10304#64)] tb)) =
      some (.scalar 7 (BitVec.allOnes 64) false) ∧
    landed (exec (.ext 7 5 6 0) (withRegs [(5, 0xA5F0#64), (6, 0x304#64)] tb)) = some (.scalar 7 0xF#64 false) := by decide
/-- R281: `ANDI sD, sA, -64` clears bits [5:0]. -/
theorem test_andi : landed (exec (.andi 7 5 (-64)) (withRegs [(5, 0xFFF#64)] tb)) = some (.scalar 7 0xFC0#64 false) := by
  decide
/-- R298 and R335: division by zero and the overflow. -/
theorem test_div : landed (exec (.div 7 5 6 0) (withRegs [(5, 9#64)] tb)) = some (.scalar 7 (BitVec.allOnes 64) false) ∧
    landed (exec (.div 7 5 6 0) (withRegs [(5, BitVec.ofNat 64 (2 ^ 63)), (6, BitVec.allOnes 64)] tb)) =
      some (.scalar 7 (BitVec.ofNat 64 (2 ^ 63)) false) := by decide
theorem test_rem : landed (exec (.rem 7 5 6 0) (withRegs [(5, BitVec.ofInt 64 (-7)), (6, 2#64)] tb)) =
    some (.scalar 7 (BitVec.allOnes 64) false) := by decide
/-- R293: `CMPI.LTU p1, s2, -1` is false for the largest word alone. -/
theorem test_cmpi : landed (exec (.cmpiLtu 1 2 (-1)) (withRegs [(2, 5#64)] tb)) = some (.pred 1 true) ∧
    landed (exec (.cmpiLtu 1 2 (-1)) (withRegs [(2, BitVec.allOnes 64)] tb)) = some (.pred 1 false) := by decide
/-- R312's table of conversions. -/
theorem test_fcvt : ∀ e ∈ ([(0x40200000, .i64F32, .rne, false, 2), (0x40600000, .i64F32, .rne, false, 4),
      (0x40600000, .i64F32, .rz, false, 3), (0x501502F9, .i32F32, .rne, false, 0x7FFFFFFF),
      (0x7FC00000, .i64F32, .rne, false, 0), (0x43FA0000, .e4m3F32, .rne, false, 0x7F),
      (0x43FA0000, .e4m3F32, .rne, true, 0x7E), (0x477FF000, .f16F32, .rne, false, 0x7C00),
      (0x477FF000, .f16F32, .rne, true, 0x7BFF), (0x3F808000, .bf16F32, .rne, false, 0x3F80)] :
      List (Nat × FcvtForm × Rounding × Bool × Nat)),
    landed (exec (.fcvt 7 8 e.2.1 e.2.2.1 e.2.2.2.1 0) (withRegs [(8, BitVec.ofNat 64 e.1)] tb)) =
      some (.scalar 7 (BitVec.ofNat 64 e.2.2.2.2) false) := by decide +kernel
/-- 1.5 + 2.25 = 3.75. -/
theorem test_fadd : landed (exec (.fadd 7 5 6 0) (withRegs [(5, 0x3FC00000#64), (6, 0x40100000#64)] tb)) =
    some (.scalar 7 0x40700000#64 false) := by decide
/-- VBCAST of 1.0, then VADD of the register to itself: 2.0 in the last element of the tile. -/
theorem test_vadd :
    let v : VecVal := BitVec.ofNat 65536 (0x3F800000 * 2 ^ (32 * 2047))
    let s : State := { tb with me := { tb.me with regs := { tb.me.regs with v := tb.me.regs.v.set 2 v } } }
    (landed (exec (.vadd 1 2 2 .f32 0) s)).map (fun w => elemAt ((w.apply s.me.regs).vget 1).toNat 4 2047) = some 0x40000000 := by decide +kernel
/-- A last step of ADD in E4M3 below −448 gives the NaN with its sign, and a later step meets a NaN (R105, R107, R375). -/
theorem test_reduce_e4m3 :
    let e := vfmtElem .e4m3
    let x := redStep .add e (e.val 0xFE) (e.val 0xFE)
    encodeElem e x = 0xFF ∧ encodeElem e (redStep .add e x (e.val 0x38)) = 0x7F := by decide +kernel
/-- A bundle that reads the destination of an outstanding load issues when the load has returned, any other at once (R71,
R214). -/
theorem test_issue_from :
    let load (d : SReg) : Outstanding :=
      { due := 40, writes := [.scalar d 7#64 false], base := none, ecc := false, written := false }
    let s (d : SReg) : State :=
      let t := State.reset.withFetchWord 32 0x08008005
      { t with me := { t.me with m0 := [load d] } }
    (s 1).issueFrom 9 = 40 ∧ (s 9).issueFrom 9 = 9 := by decide +kernel
/-- A store is read back by a load of another width; the byte above it keeps its value. -/
theorem test_sst :
    after (exec (.sstI16 5 0 0) (withRegs [(5, 0x12345#64)] tm)) (fun t =>
      landed (exec (.sldI32 7 0 0) t) == some (.scalar 7 0x2345#64 false)) = true := by decide +kernel
theorem test_st :
    after (exec (.stI32 5 6 1) (withRegs [(5, 0x80000001#64), (6, 0x2000#64)] tm)) (fun t =>
      loadBytes t.mem 0x2004 4 == 0x80000001 && after (exec (.ldI32 7 6 1) t) (fun u =>
        u.me.m0.any fun o => o.writes == [.scalar 7 0xFFFFFFFF80000001#64 false, .pred 7 true])) = true := by decide +kernel
/-- One arrival of one ends the phase: PH turns, REM is EXP again. -/
theorem test_barv :
    after (exec (.binit 5 6 0) (withRegs [(5, 0x1000000000000010#64), (6, 1#64)] tm)) (fun t =>
      after (exec (.barv 5 0) t) fun u => u.barrier 0x1000000000010 ==
        { pend := 0, exp := 1, rem := 1, lseq := 0, ph := true, ovf := false }) = true := by decide +kernel
/-- A trap with no handler ends the task: the context is Idle. -/
theorem test_trap : after (exec (.trap 7) (ta 1)) (fun t => t.me.status == .idle && t.faultRecords == 1) = true := by
  decide +kernel
/-- R112: the third bundle after the write sees it. -/
theorem test_efr : (((State.reset.me.writeEfr 0x3#64).tickEfr).efr, ((State.reset.me.writeEfr 0x3#64).tickEfr.tickEfr).efr) =
    (0x5#64, 0x3#64) := by decide
/-- The first step after reset runs the word placed for it: `ADDI s1, s0, 5` alone, visible one cycle later. -/
theorem test_step_word : after (step (State.reset.withFetchWord 32 0x08008005)) (fun t =>
    t.me.inflight.map (·.w) == [.scalar 1 5#64 false] && t.me.pc == 0x1004#64) = true := by decide +kernel

/-! A witness for the hypotheses of each obligation: a state and operands that meet them. -/

theorem test_witness_TenScalarForms : tb.bundled ∧ tb.pr 0 = true := ⟨rfl, by decide⟩
theorem test_witness_DivideAndRemainder : tb.bundled ∧ tb.pr 0 = true ∧ tb.pr 1 = false := ⟨rfl, by decide⟩
theorem test_witness_SumsAndLogic : tb.bundled ∧ tb.pr 0 = true := ⟨rfl, by decide⟩
theorem test_witness_BitAndMoveForms : tb.bundled ∧ tb.pr 0 = true ∧ tb.pr 7 = false := ⟨rfl, by decide⟩
theorem test_witness_Comparisons : tb.bundled ∧ tb.pr 0 = true := ⟨rfl, by decide⟩
theorem test_witness_PredicateLogic : tb.bundled ∧ tb.pr 0 = true := ⟨rfl, by decide⟩
theorem test_witness_ScalarFloats : tb.bundled ∧ tb.pr 0 = true := ⟨rfl, by decide⟩
theorem test_witness_SystemReads : tb.bundled ∧ tbPriv.bundled ∧
    (sysPrivileged .tvec = true ∧ tb.me.priv = false ∧ tb.issue.trap = none) ∧ sysPrivileged .tslate = false ∧
    tbPriv.me.priv = true ∧ tb.pr 0 = true ∧ tb.issue.reads.lookup (tb.slotOr 0) = none ∧
    (let s : State := { tb with issue := { tb.issue with reads := [(0, 5#64)] } }
     s.issue.multi = true ∧ s.issue.reads.lookup (s.slotOr 0) = some 5#64) := ⟨rfl, rfl, by decide⟩
theorem tRoomy (s : State) (h : s.me.inflight.length + s.me.m0.countP (fun o => !o.written && o.base.isNone) ≤ 62) :
    s.roomy := h
theorem test_witness_SystemWrites : (ta 1).alone 1 ∧ (ta 1).roomy ∧ (ta 1).me.delay = none ∧
    (let s : State := { ta 1 with me := { Ctx.reset with priv := true } }
     s.alone 1 ∧ s.roomy ∧ s.me.delay = none ∧ s.me.priv = true) ∧
    (tb.bundled ∧ tb.roomy ∧ tb.me.delay = none ∧ tb.me.priv = false ∧ tb.issue.trap = none ∧
      sysPrivileged .stkerr = true) :=
  ⟨rfl, tRoomy _ (by decide), by decide, ⟨rfl, tRoomy _ (by decide), by decide, by decide⟩, rfl, tRoomy _ (by decide), by decide, by decide,
    by decide, by decide⟩
theorem test_witness_EngineFormatDelay : Ctx.reset.efrPend = [] ∧ (ta 1).alone 1 ∧ (ta 1).roomy ∧
    (ta 1).me.delay = none := ⟨by decide, rfl, tRoomy _ (by decide), by decide⟩
/-- Two one-syllable bundles stand behind the pc. -/
def tCall : State :=
  { ta 1 with
    mem := storeBytes (placeTables []) 0x1004 8 (0x85200000 * 2 ^ 32 + 0x85200000)
    me := { Ctx.reset with ptroot := 0x10000000#64, pc := 0x1000#64 } }
/-- A transfer whose delay bundles run. -/
def tDelay (left : Nat) (taken : Bool) (kind : TransferKind) : Delay :=
  { left := left, taken := taken, target := 0x2000#64, kind := kind }
def tInDelay (n left : Nat) (taken : Bool) (kind : TransferKind) : State :=
  { ta n with me := { Ctx.reset with delay := some (tDelay left taken kind) } }
theorem test_witness_ControlTransfers : (ta 1).alone 1 ∧ (ta 1).roomy ∧ (ta 1).me.delay = none ∧
    (tCall.alone 1 ∧ tCall.roomy ∧ tCall.me.delay = none ∧ tCall.bundleLen (tCall.me.pc + 4#64) = some 1 ∧
      tCall.bundleLen (tCall.me.pc + 4#64 + 4#64) = some 1) ∧
    (let s : State := { tInDelay 1 1 true .plain with issue := tb.issue }
     s.bundled ∧ s.me.delay.isSome = true ∧ s.issue.trap = none) :=
  ⟨rfl, tRoomy _ (by decide), by decide, ⟨rfl, tRoomy _ (by decide), by decide, by decide, by decide⟩, rfl, by decide, by decide⟩
theorem test_witness_DelayBundles : (ta 1).alone 1 ∧ (ta 1).roomy ∧ (ta 1).me.delay = none ∧
    (∀ d ∈ [tDelay 2 true .pops, tDelay 1 true .plain, tDelay 1 true .pops, tDelay 2 false .plain, tDelay 1 false .plain],
      let s := tInDelay 1 d.left d.taken d.kind
      s.alone 1 ∧ s.roomy ∧ s.me.delay = some d) := by
  refine ⟨rfl, tRoomy _ (by decide), by decide, ?_⟩
  intro d hd
  simp only [List.mem_cons, List.not_mem_nil, or_false] at hd
  rcases hd with rfl | rfl | rfl | rfl | rfl <;> exact ⟨rfl, tRoomy _ (by decide), by decide⟩
/-- A loop entry. -/
def tLoop : LoopEntry := { start := 0#64, stop := 8#64, remaining := 3#64 }
theorem test_witness_Loops : tb.bundled ∧ (5 ≠ 0 ∧ tb.me.delay = none ∧ tb.me.loops.length < 6 ∧ tb.issue.trap = none ∧
      (withRegs [(3, 7#64)] tb).rs 3 ≠ 0 ∧ tb.rs 3 = 0) ∧
    (let s : State := { tb with me := { Ctx.reset with loops := List.replicate 6 tLoop } }
     s.bundled ∧ s.issue.trap = none ∧ s.me.delay = none ∧ s.me.loops.length = 6) ∧
    (let s : State := { tInDelay 1 1 true .plain with issue := tb.issue }
     s.bundled ∧ s.issue.trap = none ∧ s.me.delay.isSome = true) ∧
    (let s : State := { ta 1 with me := { Ctx.reset with loops := [tLoop] } }
     s.alone 1 ∧ s.roomy ∧ s.me.delay = none ∧ s.pr 0 = true ∧ s.me.loops = tLoop :: []) ∧
    ((ta 1).alone 1 ∧ (ta 1).roomy ∧ (ta 1).me.delay = none ∧ (ta 1).me.loops = []) ∧
    (∀ e ∈ [tLoop, { tLoop with remaining := 1#64 }],
      let s : State := { ta 1 with me := { Ctx.reset with pc := 4#64, loops := [e] } }
      s.alone 1 ∧ s.roomy ∧ s.me.delay = none ∧ s.me.loops = e :: []) ∧
    (¬ (tLoop.stop ≤ 0#64 + BitVec.ofNat 64 (4 * 1)) ∧ tLoop.start ≤ 4#64 ∧ 4#64 < tLoop.stop ∧
      tLoop.stop ≤ 4#64 + BitVec.ofNat 64 (4 * 1) ∧ 1 < tLoop.remaining) :=
  ⟨rfl, by decide, ⟨rfl, by decide⟩, ⟨rfl, by decide⟩,
    ⟨rfl, tRoomy _ (by decide), by decide, by decide, by decide⟩, ⟨rfl, tRoomy _ (by decide), by decide, by decide⟩, by
      intro e he
      simp only [List.mem_cons, List.not_mem_nil, or_false] at he
      rcases he with rfl | rfl <;> exact ⟨rfl, tRoomy _ (by decide), by decide, by decide⟩, by decide⟩
theorem test_witness_HaltEndsContext : (ta 1).alone 1 ∧ (ta 1).roomy ∧ (ta 1).pr 0 = true ∧
    (ta 1).me.m0.any (·.ecc) = false ∧ (ta 1).me.ecc = [] ∧ (ta 1).me.eccLatched = [] :=
  ⟨rfl, tRoomy _ (by decide), by decide, by decide, by decide, by decide⟩
/-- A handler and a pool of save areas in HBM. -/
def tHandler : State :=
  { ta 1 with tvec := 0x4000#64, clusters := [(0, { Cluster.reset with svbase := 0x20000000#64 })] }
theorem test_witness_TrapEntersHandler :
    let s : State := { tHandler with me := { tHandler.me with pc := 4#64, loops := [tLoop] } }
    s.alone 1 ∧ s.roomy ∧ s.me.delay = none ∧ s.me.loops.length ≤ 6 ∧ takesArea s 0 ∧ s.me.inflight = [] ∧ s.me.m0 = [] ∧
      (endTest s.me.pc (s.me.pc + BitVec.ofNat 64 (4 * 1)) s.me.loops).1[0]? = some { tLoop with remaining := 2#64 } :=
  ⟨rfl, tRoomy _ (by decide), by decide, by decide, by unfold takesArea; decide, by decide, by decide, by decide⟩
theorem test_witness_TrapWithoutHandler : (ta 1).tvec = 0 ∧ tbPriv.me.priv = true ∧
    (tHandler.cluster (clusterOf tHandler.cur)).freeArea ≠ none ∧ (tb.cluster (clusterOf tb.cur)).freeArea = none := by
  decide
/-- A result that is due at cycle 5. -/
def tFlight : Flight := { due := 5, slot := 0, born := 1, w := .scalar 3 7#64 false }
theorem test_witness_SaveWritesEveryField : [tFlight].length ≤ 64 ∧ tb.me.withdrawn.length ≤ 64 ∧ [tFlight][0]? = some tFlight ∧
    (let s : State := { tb with me := { tb.me with loops := [tLoop] } }
     s.me.loops.length ≤ 6 ∧ s.me.withdrawn.length ≤ 64 ∧ s.me.loops[0]? = some tLoop) := by decide
theorem test_witness_FreezeLatches :
    let c : Ctx := { Ctx.reset with inflight := [{ tFlight with due := 4 }, tFlight] }
    c.m0 = [] ∧ c.latched = [] ∧ (c.inflight.filter fun f => 4 < f.due)[0]? = some tFlight ∧
      (c.freeze 4).2[0]? = some { tFlight with due := 1, born := 0 } := by decide
/-- A handler that returns: its area holds a version, a pc and no copies to issue again. -/
def tReturn : State :=
  { tHandler with
    mem := storeBytes [] 0x20000000 2 0x0300
    clusters := [(0, { Cluster.reset with svbase := 0x20000000#64, areas := 1 })]
    me := { Ctx.reset with priv := true, svcur := 0x20000000#64 } }
theorem test_witness_ReturnRestores : tReturn.alone 1 ∧ tReturn.roomy ∧ tReturn.me.delay = none ∧
    tReturn.me.priv = true ∧ (tb.bundled ∧ tb.me.priv = false ∧ tb.issue.trap = none) ∧
    (tReturn.noPa 0x20000000 = false ∧ tReturn.me.svcur.toNat = 0x20000000 ∧ loadBytes tReturn.mem 0x20000000 2 = 0x0300 ∧
      loadBytes tReturn.mem 0x20000004 1 = 0 ∧ 0x20000000 = areaPa (tReturn.cluster (clusterOf tReturn.cur)) 0 ∧
      (tReturn.cluster (clusterOf tReturn.cur)).svbase ≠ 0) ∧
    (let s : State := { tReturn with me := { tReturn.me with delay := some (tDelay 1 true .eret) } }
     s.alone 1 ∧ s.roomy ∧ s.me.delay = some (tDelay 1 true .eret) ∧ s.me.svcur.toNat = 0x20000000) :=
  ⟨rfl, tRoomy _ (by decide), by decide, by decide, ⟨rfl, by decide⟩, by decide, rfl, tRoomy _ (by decide), by decide,
    by decide⟩

theorem test_witness_VectorArithmetic : tb.bundled ∧ shapeOk tb.vshp = true ∧ tb.fmtFits .f32 = true :=
  ⟨rfl, by decide⟩
theorem test_witness_VectorMoves : tb.bundled ∧ shapeOk tb.vshp = true ∧ tb.fmtFits .i32 = true := ⟨rfl, by decide⟩
theorem test_witness_VectorConversions : tb.bundled ∧ shapeOk tb.vshp = true ∧
    tb.tileN * (vfmtElem .bf16).bytes ≤ 8192 ∧ tb.fmtFits .f32 = true := ⟨rfl, by decide⟩
theorem test_witness_MaskForms : tb.bundled ∧ shapeOk tb.vshp = true ∧ tb.fmtFits .f32 = true := ⟨rfl, by decide⟩
theorem test_witness_VectorReductions : tb.bundled ∧ shapeOk tb.vshp = true ∧ tb.fmtFits .f32 = true := ⟨rfl, by decide⟩
/-- Operand FIFO A of the core is full. -/
def tFull : State :=
  { tb with cores := [(0, { Core.reset with fa := { FaUnit.reset with fifoA := List.replicate 32 { work := 1, data := 0, poison := 0, source := .push } } })] }
theorem test_witness_ShapesAndStreams : tb.bundled ∧ tFull.bundled ∧ tb.fmtFits .f32 = true ∧
    ((tb.core (coreOf tb.cur)).fa.fifoA.length + (shapeBytes tb.vshp + 255) / 256 ≤ 32) ∧
    (tFull.fmtFits .f32 = true ∧ 32 < (tFull.core (coreOf tFull.cur)).fa.fifoA.length + (shapeBytes tFull.vshp + 255) / 256 ∧
      tFull.issue.trap = none) ∧ shapeOk tb.vshp = true ∧ (62 : SReg) ≠ 63 ∧
    shapeOk ((withRegs [(9, 0x3F1F#64)] tb).rs 9) = true ∧ shapeOk ((withRegs [(9, 0x80#64)] tb).rs 9) = false :=
  ⟨rfl, rfl, by decide⟩
theorem test_witness_SpecialFunctions : tb.bundled ∧ shapeOk tb.vshp = true ∧ sfBytes .f32 = tb.es ∧
    sfBytes .bf16 ≠ tb.es ∧ tb.issue.trap = none := ⟨rfl, by decide⟩

/-- A line of bank 0 is poisoned under strict ECC. -/
def tPoison : State :=
  { tm with
    lines := [(scratchPa 0 0 0 / 64, { LineData.clear with poison := true })]
    me := { tm.me with memctl := 1#64 } }
theorem test_witness_BankLoads : tm.bundled ∧ (tm.bankFault 0 0 8 = none ∧ 0 % 8 = 0 ∧ tm.faults = [] ∧
      (tm.line (scratchPa tm.myCluster 0 0)).poison = false) ∧
    (tPoison.bundled ∧ tPoison.bankFault 0 0 8 = none ∧ tPoison.faults = [] ∧
      (tPoison.line (scratchPa tPoison.myCluster 0 0)).poison = true ∧ tPoison.me.memctl.getLsbD 0 = true) ∧
    (tm.issue.trap = none ∧ tb.issue.trap = none ∧ tb.bankFault 0 0 8 = some 1 ∧ tm.bankFault 0 (0x300000 - 4) 8 = some 2 ∧
      { tm with retired := [0] }.bankFault 0 0 8 = some 3 ∧ tm.bankFault 0 (0x300000 - 12) 8 = none ∧
      (0x300000 - 12) % 8 ≠ 0) := ⟨rfl, by decide, ⟨rfl, by decide⟩, by decide⟩
theorem test_witness_BankStores : tm.bundled ∧ tm.bankFault 0 0x2FFFF8 8 = none ∧ 0x2FFFF8 % 8 = 0 ∧ tm.faults = [] ∧
    tm.bankFault 0 64 (shapeBytes tm.vshp) = none ∧ tm.issue.trap = none ∧ tb.bankFault 0 0 8 = some 1 ∧
    tm.bankFault 0 65 (shapeBytes tm.vshp) = none ∧ 65 % 64 ≠ 0 := ⟨rfl, by decide⟩
theorem test_witness_BankTiles : tm.bundled ∧ shapeOk tm.vshp = true ∧ tm.bankFault 0 64 (shapeBytes tm.vshp) = none ∧
    tm.faults = [] ∧ (∀ i < (shapeBytes tm.vshp + 63) / 64, (tm.line (scratchPa tm.myCluster 0 64 + 64 * i)).poison = false) ∧
    tm.issue.trap = none ∧ tb.bankFault 0 0 64 = some 1 ∧ tm.bankFault 0 65 64 = none ∧ 65 % 64 ≠ 0 := ⟨rfl, by decide +kernel⟩

/-! Global accesses: 0x2000 is resident, 1 GiB absent, 2 GiB protected, 2^57 no address. -/

/-- A mark at 0x2000 that leads to itself. -/
def tChain : State := { tmMovable with lines := [(0x2000 / 64, { LineData.clear with mark := true })] }
theorem test_witness_GlobalLoads : tmGuarded.bundled ∧ Memory.wf tmGuarded.mem = true ∧ tmGuarded.l1 = [] ∧
    (tmGuarded.chaseMe 0x2008#64 .read).x.st = .ok ∧ (tmGuarded.chaseMe 0x2008#64 .read).x.pa = 0x2008 ∧
    (tmGuarded.chaseMe 0x40000000#64 .read).x.st = .absent ∧ (tmGuarded.chaseMe 0x80000000#64 .read).x.st = .protect ∧
    (tmGuarded.chaseMe (BitVec.ofNat 64 (2 ^ 57)) .read).x.st = .format ∧ 0x2009 % 8 ≠ 0 ∧ tmGuarded.issue.trap = none ∧
    tmGuarded.early = [] ∧ (tChain.issue.multi = true ∧ tChain.issue.trap = none ∧
      (tChain.chaseMe 0x2008#64 .read).x.st = .chain) :=
  ⟨rfl, by decide +kernel⟩
/-- A later writer has written the line at 0x2000 in deterministic mode. -/
def tmDet : State := { tm with detAct := true, lines := [(0x2000 / 64, { LineData.clear with wid := 5 })] }
theorem test_witness_GlobalStores : tmGuarded.bundled ∧ tmGuarded.pr 0 = true ∧
    (let c := tmGuarded.chaseMe 0x2000#64 .write
     c.x.st = .ok ∧ tmGuarded.detDrops tmGuarded.me.wid c.x.e c.x.pa = false) ∧
    (let c := tmDet.chaseMe 0x2000#64 .write
     c.x.st = .ok ∧ tmDet.detDrops tmDet.me.wid c.x.e c.x.pa = true) ∧ tmDet.issue.multi = true ∧ tmDet.pr 0 = true ∧
    ((tmGuarded.chaseMe 0x40000000#64 .write).x.st = .absent ∧ tmGuarded.issue.woken ≠ some .refused ∧
      tmGuarded.issue.wait = none ∧ tmGuarded.issue.trap = none) ∧
    (tmGuarded.chaseMe 0x80000000#64 .write).x.st = .protect ∧
    (let s : State := { tmGuarded with issue := { tb.issue with woken := some .refused } }
     s.issue.multi = true ∧ s.issue.trap = none ∧ (s.chaseMe 0x40000000#64 .write).x.st = .absent ∧
       (s.chaseMe 0x2000#64 .write).x.st = .ok ∧ s.issue.woken = some .refused) := ⟨rfl, by decide +kernel⟩
theorem test_witness_Atomics : tmGuarded.bundled ∧ Memory.wf tmGuarded.mem = true ∧ tmGuarded.early = [] ∧
    (tmGuarded.chaseMe 0x2000#64 .write).x.pa % 8 = 0 ∧
    (tmGuarded.chaseMe 0x2000#64 .write).x.st = .ok ∧ (62 : SReg) ≠ 63 ∧ tmGuarded.issue.trap = none ∧ 0x2004 % 8 ≠ 0 ∧
    (tmGuarded.chaseMe 0x80000000#64 .write).x.st = .protect ∧
    loadBytes tmGuarded.mem 0x2000 8 = (tmGuarded.rs 6).toNat % 2 ^ 64 ∧
    loadBytes tmGuarded.mem 0x2000 8 ≠ ((withRegs [(6, 1#64)] tmGuarded).rs 6).toNat % 2 ^ 64 ∧
    tmGuarded.issue.woken ≠ some .refused ∧
    (let s : State := { tmGuarded with issue := { tb.issue with woken := some .refused } }
     s.issue.trap = none ∧ s.issue.woken = some .refused ∧ (s.chaseMe 0x2000#64 .write).x.st = .ok) := ⟨rfl, by decide +kernel⟩
/-- The request of the bundle at hand for the page of `a` has been refused. -/
def tRefused (a : Word) (s : State) : State :=
  { s with
    issue := { s.issue with woken := some .refused }
    me := { s.me with held := some { first := 0, syls := [], len := 1, regs := s.me.regs, reads := [], wait := .page a, ended := [] } } }
/-- A tile of one row of 64 elements in f32. -/
def tmRow : State := { tm with me := { tm.me with regs := { tm.me.regs with vshp := 0x3F00#64 } } }
/-- A tile of 32 rows of 256 elements in int8. -/
def tmWide : State := { tm with me := { tm.me with regs := { tm.me.regs with vshp := 0x7FF1F#64 } } }
/-- Line `i` of the tile at s5. -/
def tLine (s : State) (i : Nat) : Chased := s.chaseMe (s.rs 5 + BitVec.ofNat 64 (64 * i)) .read
/-- A tile of one row of 64 elements in f32 with its base in s5. -/
def tRow (s : State) (a : Word) : State :=
  withRegs [(5, a)] { s with me := { s.me with regs := { s.me.regs with vshp := 0x3F00#64 } } }
theorem test_witness_VectorLoads : (tRow tm 0x2000#64).bundled ∧
    (let s := tRow tm 0x2000#64
     shapeOk s.vshp = true ∧ (shapeBytes s.vshp + 63) / 64 = 4 ∧ (s.rs 5).toNat % 64 = 0 ∧
     (∀ i < 4, (tLine s i).x.st = .ok) ∧ s.tileN ≤ 2048 ∧ Memory.wf s.mem = true ∧ s.l1 = [] ∧ s.early = [] ∧
     s.faults = [] ∧ leafEph (tLine s 0).x.e = false ∧ (tLine s 0).x.pa % 64 + 0 + 4 ≤ 64 ∧
     elemAt (s.rv 3).toNat 4 7 = 0 ∧ s.issue.trap = none) ∧
    (let s := tRow tm 0x3FFFFFC0#64
     shapeOk s.vshp = true ∧ (s.rs 5).toNat % 64 = 0 ∧ (tLine s 0).x.st = .ok ∧ ∀ i < 4, i ≠ 0 → (tLine s i).x.st = .absent) ∧
    (let s := tRow tChain 0x2000#64
     shapeOk s.vshp = true ∧ s.issue.trap = none ∧ (tLine s 0).x.st = .chain ∧ ∀ i < 4, (tLine s i).x.st ≠ .hole) ∧
    (let s := tRow tmGuarded 0x80000000#64
     shapeOk s.vshp = true ∧ s.issue.trap = none ∧ (∀ i < 4, (tLine s i).x.st = .protect)) ∧
    0x2020 % 64 ≠ 0 ∧ ((tRow tm 0x2002#64).rs 5).toNat % 4 ≠ 0 ∧
    (tmWide.issue.multi = true ∧ shapeOk tmWide.vshp = true ∧ 2048 < tmWide.tileN) := ⟨rfl, by decide +kernel⟩
theorem test_witness_VectorStores : (withRegs [(5, 0x2000#64)] tmRow).bundled ∧
    (let s := withRegs [(5, 0x2000#64)] tmRow
     let lines := s.lineChases (s.rs 5) (shapeBytes s.vshp) .write
     shapeOk s.vshp = true ∧ s.detAct = false ∧ Memory.wf s.mem = true ∧ (s.rs 5).toNat % 64 = 0 ∧
     (∀ c ∈ lines, c.x.st = .ok) ∧ (lines.map fun c => c.x.pa / 64 * 64) = [0x2000, 0x2040, 0x2080, 0x20C0] ∧
     s.tileN ≤ 2048 ∧ (s.chaseMe (s.rs 5) .write).x.st = .ok ∧ s.issue.trap = none ∧ s.issue.woken ≠ some .refused ∧
     s.issue.wait = none) ∧ 0x2020 % 64 ≠ 0 ∧
    (tmWide.issue.multi = true ∧ shapeOk tmWide.vshp = true ∧ tmWide.detAct = false ∧ 2048 < tmWide.tileN) :=
  ⟨rfl, by decide +kernel⟩
theorem test_witness_refused_stores :
    (let s := tRefused 0x2000#64 (withRegs [(5, 0x2000#64)] tmRow)
     s.issue.multi = true ∧ s.issue.woken = some .refused ∧ s.issue.trap = none ∧ (s.rs 5).toNat % 64 = 0 ∧
     s.me.held.map (·.wait) = some (.page 0x2000#64) ∧ (s.chaseMe 0x2000#64 .write).x.st = .ok ∧
     (s.chaseMe 0x2040#64 .write).x.st = .ok ∧ (s.chaseMe 0x40000000#64 .write).x.st = .absent) ∧
    (tmGuarded.chaseMe 0x80000000#64 .write).x.st = .protect ∧ tmGuarded.issue.trap = none ∧
    tmGuarded.issue.woken ≠ some .refused := by decide +kernel
theorem test_witness_HintsFencesInvalidations : tb.bundled ∧ tbPriv.bundled ∧ tbPriv.me.priv = true ∧ tb.me.priv = false ∧
    tb.issue.trap = none ∧ tbPriv.issue.trap = none ∧ tbPriv.pr 0 = true ∧ tbPriv.pr 1 = false ∧
    (let s := withRegs [(4, 0x1000#64), (5, 0x2000#64), (6, 1#64)] tbPriv
     (s.rs 4).toNat % 4096 = 0 ∧ (s.rs 5).toNat % 4096 = 0 ∧ 0 < (s.rs 5).toNat ∧ (s.rs 5).toNat ≤ 2 ^ 57 ∧
       (s.rs 4).toNat < 2 ^ 57 ∧ (s.rs 6).toNat % 4096 ≠ 0) ∧
    (tm.issue.multi = true ∧ (let c := tm.chaseMe 0x2000#64 .read
      c.x.st = .ok ∧ inHbm c.x.pa = true ∧ leafHome c.x.e = 0 ∧ tm.l1 = [] ∧ (tm.line c.x.pa).readCount = 0)) :=
  ⟨rfl, rfl, by decide +kernel⟩
theorem test_witness_FalseGuards : tb.bundled ∧ tb.pr 3 = false ∧
    (let s : State := { tb with me := { tb.me with priv := true } }
     s.bundled ∧ s.pr 3 = false ∧ s.me.priv = true) := ⟨rfl, by decide, rfl, by decide⟩
/-- A job of the acting context. -/
def tJob (id : Nat) (kind : JobKind) : Job :=
  { id := id, kind := kind, loc := 0, work := 0, task := 0, root := 0x10000000#64, user := true, wid := 0, pts := 0
    seq := 0, domain := 0, foot := [], completion := .counter 5, started := false, pos := 0, failed := false
    paused := false, request := none, refused := false, done := [], src := [], stale := [], quiesce := none, ending := none, ended := none }
/-- s1 names bank 0, s2 to s4 global addresses, s5 a length; rows of `len` bytes. -/
def tGeo (len : Nat) : State :=
  let s := withRegs [(1, 0x1000000000000000#64), (2, 0x2000#64), (3, 0x4000#64), (4, 0x8000#64), (5, 0x100#64)] tm
  { s with me := { s.me with gShadow := s.me.gShadow.set 0 (BitVec.ofNat 64 len) } }
def tCopyKind : JobKind := .copy 0x1000000000000000#64 0x2000#64 (tGeo 64).me.gShadow
theorem test_witness_EngineCommands : (tGeo 64).bundled ∧
    (let s := tGeo 64
     let geo := s.me.gShadow
     s.pr 0 = true ∧ copyEnd (s.rs 1) = some (.scratch 0 0) ∧ copyEnd (s.rs 2) = some (.virt 0x2000) ∧
     geoCompletion s.myCluster geo[3] = some (.barrier 0x1000000000000) ∧ geometryOk geo = true ∧
     bits geo[0].toNat 31 0 ≠ 0 ∧ bits geo[0].toNat 47 32 = 0 ∧
     endTooLong (.scratch 0 0) (copyExtent geo geo[2]) = false ∧ endTooLong (.virt 0x2000) (copyExtent geo geo[1]) = false ∧
     s.endTrap (.scratch 0 0) (copyExtent geo geo[2]) = none ∧ s.endTrap (.virt 0x2000) (copyExtent geo geo[1]) = none ∧
     s.copiesIn s.myCluster < 64 ∧ s.trackingFull = false ∧
     64 ≤ { s with jobs := List.replicate 64 (tJob 1 tCopyKind) }.copiesIn s.myCluster ∧
     scratchWord (s.rs 1) = some (0, 0) ∧ s.mapHeld = false ∧ geo[0].toNat < 2 ^ 32 ∧ bits geo[3].toNat 63 62 = 0 ∧
     geo[4].toNat < 2 ^ 24 ∧ s.runFault 0 64 0 = none ∧ barrierWord s.myCluster (s.rs 1) = some 0x1000000000000 ∧
     (s.rs 2).toNat % 64 = 0 ∧ (s.rs 5).toNat < 2 ^ 14 ∧ bits (s.rs 5).toNat 7 6 = 0 ∧ (s.rs 5).toNat < 4096 ∧
     4096 ≤ (s.rs 2).toNat ∧ s.issue.trap = none ∧ s.me.priv = false ∧
     copyEnd ((withRegs [(1, BitVec.ofNat 64 (2 ^ 63))] s).rs 1) = none ∧ (withRegs [(1, 1#64)] s).rs 1 = 1#64) ∧
    (let s := tGeo 4096
     let geo := s.me.gShadow
     let len := bits geo[0].toNat 31 0
     s.relocHeld = false ∧ (s.rs 3).toNat % 4096 = 0 ∧ (s.rs 4).toNat % 4096 = 0 ∧ len ≠ 0 ∧ len % 4096 = 0 ∧
     bits geo[0].toNat 47 32 = 0 ∧ geo[1] = 0 ∧ geo[2] = 0 ∧ bits geo[4].toNat 23 16 = 0 ∧ geometryOk geo = true ∧
     (s.rs 3).toNat + len ≤ (s.rs 4).toNat ∧ (s.rs 5).toNat % 64 = 0 ∧ (s.rs 5).toNat ≠ 0) ∧
    (let s : State := { tGeo 4096 with me := { (tGeo 4096).me with priv := true } }
     s.issue.multi = true ∧ s.pr 0 = true ∧ s.me.priv = true ∧ (s.rs 3).toNat % 4096 = 0) := ⟨rfl, by decide +kernel⟩
theorem test_witness_GeometryAndRequests : (tGeo 64).bundled ∧
    (let s := tGeo 64
     s.pr 0 = true ∧ completionWord s.myCluster (s.rs 0) = some (.barrier 0x1000000000000, 0) ∧ (s.rs 2).toNat % 64 = 0 ∧
     s.activeColls < 16 ∧ s.reshardsIn (towerOf s.cur) < 4 ∧
     16 ≤ { s with jobs := List.replicate 16 (tJob 1 (.coll 0 none)) }.activeColls ∧
     4 ≤ { s with jobs := List.replicate 4 (tJob 1 (.reshard 0 0 0 none)) }.reshardsIn (towerOf s.cur) ∧
     barrierWord s.myCluster (s.rs 1) = some 0x1000000000000 ∧
     (s.translate s.me.ptroot (s.rs 2) .read (!s.me.priv)).st = .ok ∧
     (s.translate s.me.ptroot 0x40000000#64 .read (!s.me.priv)).st = .absent ∧ s.issue.trap = none ∧ 0x2001 % 64 ≠ 0) :=
  ⟨rfl, by decide +kernel⟩
/-- The barrier at bank 0 holds REM 1 and EXP 1. -/
def tBar : State := (tGeo 64).setBarrier 0x1000000000000 { pend := 0, exp := 1, rem := 1, lseq := 0, ph := false, ovf := false }
theorem test_witness_Barriers : tBar.bundled ∧ tBar.pr 0 = true ∧
    barrierWord tBar.myCluster (tBar.rs 1) = some 0x1000000000000 ∧ tBar.saved = [] ∧
    tBar.bankFault (bankOfPa 0x1000000000000) (0x1000000000000 % 2 ^ 22) 16 = none ∧ (tBar.rs 5).toNat < 2 ^ 16 ∧
    (tBar.barrier 0x1000000000000).pend + (tBar.rs 5).toInt < 2 ^ 31 ∧
    -(2 ^ 31) ≤ (tBar.barrier 0x1000000000000).pend + (tBar.rs 5).toInt ∧
    2 ^ 31 ≤ (tBar.barrier 0x1000000000000).pend + (tBar.rs 1).toInt ∧ (tBar.barrier 0x1000000000000).rem ≠ 0 ∧
    ((tGeo 64).barrier 0x1000000000000).rem = 0 ∧ tBar.issue.ended = [] ∧ tBar.issue.woken = none ∧
    (tBar.barrier 0x1000000000000).ovf = false ∧ (tBar.barrier 0x1000000000000).ph = false ∧ tBar.issue.wait = none ∧
    (tBar.setBarrier 0x1000000000000 { pend := 0, exp := 1, rem := 1, lseq := 0, ph := false, ovf := true }).issue.trap = none ∧
    ((tBar.setBarrier 0x1000000000000 { pend := 0, exp := 1, rem := 1, lseq := 0, ph := false, ovf := true }).barrier
      0x1000000000000).ovf = true ∧ barrierWord tBar.myCluster (tBar.rs 2) = none ∧ tBar.issue.trap = none ∧
    tBar.faults = [] :=
  ⟨rfl, by decide +kernel⟩
theorem test_witness_PassesAndSpawns : (tGeo 64).bundled ∧
    (let s := tGeo 64
     s.pr 0 = true ∧ barrierWord s.myCluster (s.rs 1) = some 0x1000000000000 ∧ s.rs 5 &&& ~~~s.me.banks = 0 ∧ s.rs 5 ≠ 0 ∧
     16 * clusterOf s.cur + 4 ≠ s.cur ∧ s.me.regions = [] ∧
     (s.cluster s.myCluster).passes.countP (fun p => p.issuer = s.me.work) < 4 ∧ s.issue.trap = none ∧
     (let u : State := { s with me := { s.me with banks := 0 } }
      u.rs 5 &&& ~~~u.me.banks ≠ 0 ∧ u.issue.trap = none) ∧
     16 * clusterOf s.cur + ((withRegs [(6, 4#64)] s).rs 6).toNat % 16 ≠ s.cur ∧ s.me.gidx.getLsbD 63 = false ∧
     (s.ctx 4).status = .idle ∧ s.issue.ended = [] ∧ s.joinedWork 4 = none ∧ s.issue.wait = none ∧
     16 * clusterOf s.cur + (s.rs 5).toNat % 16 = s.cur ∧
     (let u : State := { s with others := [(4, { Ctx.reset with status := .ready, work := 9 })] }
      u.joinedWork 4 = some 9 ∧ (u.ctx 4).status ≠ .idle)) := ⟨rfl, by decide +kernel⟩
/-- The member of index `k` in a launched gang of `n`. -/
def tGang (n k : Nat) (formed waits : Bool) : State :=
  withRegs [(5, BitVec.ofNat 64 n)] { tb with me := { tb.me with
    status := .running, gidx := BitVec.ofNat 64 (2 ^ 63 + n * 256 + k), ganged := formed, atGang := waits } }
theorem test_witness_GangsAndTime : (tGang 1 0 false false).bundled ∧
    (let s := tGang 1 0 false false
     s.me.ganged = false ∧ s.me.fresh = true ∧ s.me.gidx.getLsbD 63 = true ∧
     (s.rs 5).toNat = bits s.me.gidx.toNat 14 8 ∧ (s.gangMembers.filter fun l => l ≠ s.cur) = [] ∧ 0 + 1 = (s.rs 5).toNat) ∧
    (let s := tGang 2 0 false false
     s.issue.multi = true ∧ s.me.ganged = false ∧ s.me.fresh = true ∧ s.me.gidx.getLsbD 63 = true ∧
     (s.rs 5).toNat = bits s.me.gidx.toNat 14 8 ∧ (s.gangMembers.filter fun l => l ≠ s.cur).length + 1 ≠ (s.rs 5).toNat) ∧
    (let s := tGang 2 1 true true
     s.issue.multi = true ∧ s.me.ganged = true ∧ s.me.atGang = true ∧ bits s.me.gidx.toNat 5 0 ≠ 0) ∧
    ((tGang 2 0 true false).issue.multi = true ∧ (tGang 2 0 true false).me.ganged = true ∧
      bits (tGang 2 0 true false).me.gidx.toNat 5 0 = 0) ∧
    (tb.me.ganged = false ∧ tb.me.gidx.getLsbD 63 = false ∧ tb.issue.trap = none ∧ tb.pr 0 = true ∧ tb.issue.ended = [] ∧
      tb.rs 5 ≤ tb.timeStep ∧ tb.timeStep < (withRegs [(5, 1#64)] tb).rs 5 ∧ tb.issue.wait = none) := ⟨rfl, by decide⟩
/-- A microprogram is installed as routine 16; the array runs and queues calls as given. The context owns the bank of its
FATAB table. -/
def tArray (running queued : Option FaCall) : State :=
  { tb with images := [(16, 7)], me := { tb.me with banks := 1#64 }
            cores := [(0, { Core.reset with fa := { FaUnit.reset with running := running, queued := queued } })] }
def tCall16 : FaCall := tb.faSnapshot 1 16 .bf16
theorem test_witness_FunctionArrayForms : (tArray none none).bundled ∧
    ((tArray none none).pr 0 = true ∧ ((tArray none none).fa 0).busy 0 = false ∧
      (tArray none none).faCheck ((tArray none none).faSnapshot 1 16 .bf16) = .accepted tCall16 ∧
      ((tArray none none).fa 0).running = none) ∧
    (let s := tArray (some tCall16) none
     s.issue.multi = true ∧ (s.fa 0).busy s.me.work = true ∧ s.issue.ended = [] ∧ s.issue.wait = none ∧
     s.faCheck (s.faSnapshot 1 16 .bf16) = .accepted tCall16 ∧ (s.fa 0).running ≠ none ∧ (s.fa 0).queued = none) ∧
    (let s := tArray (some tCall16) (some tCall16)
     s.faCheck (s.faSnapshot 1 16 .bf16) = .accepted tCall16 ∧ (s.fa 0).running ≠ none ∧ (s.fa 0).queued ≠ none ∧
     s.issue.trap = none) ∧
    tb.faCheck (tb.faSnapshot 1 10 .bf16) = .trap 0x0A 0x01 ∧ tb.issue.trap = none ∧ (tArray none none).faults = [] ∧ (tArray none none).early = [] ∧
    (tArray none none).retired = [] := ⟨rfl, by decide +kernel⟩
/-- A record of a collective over two modules in which this module is member 1 and only receives. -/
def tCollRecord : Nat :=
  0x300 + 3 * 2 ^ 16 + 5 * 2 ^ 32 + 2 ^ 48 + 2 ^ 64 + 0x2000 * 2 ^ 128 + 0x4000 * 2 ^ 192 + 2 ^ 60 * 2 ^ 256 +
    0x7000 * 2 ^ 320
/-- The record stands at 0x6000, its group table at 0x7000. -/
def tCollMem (r : Nat) : List Host.Cell := storeBytes (storeBytes tm.mem 0x6000 64 r) 0x7000 4 1
/-- Its COLL has not started; the counter is the start of bank 0. -/
def tAhead : Job := tJob 1 (.coll 0x6000#64 none)
def tAheadState : State :=
  let s := withRegs [(6, 1#64)] (tGeo 64)
  { s with mem := tCollMem tCollRecord, nextId := 2, jobs := [tAhead], me := { s.me with status := .running } }
/-- A collective of two members with one open tile, its counter at the start of bank 0; this module is member 0. -/
def tColl (k : Nat) (fin : Bool) : Coll :=
  { version := 0x0300, op := 0, plane := true, fmt := 0, cid := 3, members := 2, rank := 0, tileCount := 1
    src := 0x2000#64, dst := 0x4000#64, cnt := 0x1000000000000, group := [0, 1], whole := false, result := 0, drops := 0
    tiles := [{ headers := [], planes := [], wholes := [], k := k, fin := fin, can := false, shown := false, acquired := false, spoiled := false }]
    cancels := []
    read := true
    told := false }
def tPlanes (k : Nat) (fin : Bool) : State := { tGeo 64 with jobs := [tJob 1 (.coll 0x6000#64 (some (tColl k fin)))] }
/-- The page of its record is absent. -/
def tUnknown : Job := { tAhead with kind := .coll 0x40000000#64 none }
theorem test_witness_unknown_counter :
    (let s : State := { tAheadState with jobs := [tUnknown] }
     s.pr 0 = true ∧ s.cur < 1024 ∧ s.counterWord (s.rs 1) 1 = some 0x1000000000000 ∧
     (s.counterAhead s.me.work 0x1000000000000 == some (tUnknown, false)) = true ∧ (s.rs 6).toNat = 1 ∧
     s.issue.ended = [] ∧ s.issue.wait = none) := by decide +kernel
theorem test_witness_PlaneForms : (tGeo 64).bundled ∧ (tPlanes 0 false).bundled ∧
    (∀ ps ∈ [[], [(1, 0x1000000000000)]],
      let s : State := { tAheadState with precancels := ps }
      s.pr 0 = true ∧ s.cur < 1024 ∧ s.counterWord (s.rs 1) 1 = some 0x1000000000000 ∧
      s.counterAhead s.me.work 0x1000000000000 = some (tAhead, true) ∧
      ((tAhead.id, 0x1000000000000) ∈ s.precancels ↔ ps ≠ []) ∧
      s.faults = [] ∧ s.early = [] ∧ s.inRetired 0x1000000000000 = false ∧ s.issue.ended = [] ∧ s.issue.wait = none ∧
      (s.rs 6).toNat = 1) ∧
    (let s := withRegs [(6, 1#64)] (tGeo 64)
     s.counterAhead s.me.work 0x1000000000000 = none ∧ s.counterWord (s.rs 1) 1 = some 0x1000000000000 ∧ s.planeCounter 0x1000000000000 = none ∧
     s.issue.ended = [] ∧ (s.rs 6).toNat = 1 ∧ s.faults = [] ∧ Memory.wf s.mem = true ∧ s.early = [] ∧
     s.inRetired 0x1000000000000 = false) ∧
    (let s := tPlanes 0 false
     s.counterAhead s.me.work 0x1000000000000 = none ∧ (s.planeCounter 0x1000000000000).isSome = true ∧ s.issue.wait = none ∧
     0 < min 3 (tColl 0 false).planeCount ∧ min 0 (tColl 0 false).planeCount ≤ 0) ∧
    (let s := withRegs [(6, 1#64)] (tPlanes 1 false)
     let c := tColl 1 false
     (s.rs 6).toNat = 1 ∧ s.countersLost c = false ∧
     (match s.planeCounter 0x1000000000000 with
       | some (_, d, y) => d == c && !y.fin
       | none => false) = true) ∧
    (tPlanes 2 true).planeCounter 0x1000000000000 ≠ none ∧
    (let s := tGeo 64
     s.issue.trap = none ∧ s.counterWord (s.rs 2) 1 = none ∧ s.counterWord (s.rs 2) 256 = none ∧
     (s.rs 5).toNat = 256 ∧ (s.rs 6).toNat = 0 ∧ 65536 < ((withRegs [(7, 0x10001#64)] s).rs 7).toNat ∧ (s.rs 1).toNat % 64 = 0 ∧
     ((withRegs [(7, 1#64)] s).rs 7).toNat % 64 ≠ 0 ∧ (s.rs 2).toNat % 64 = 0 ∧
     s.liveReshard s.me.ptroot (s.rs 2) 0 = none ∧ (s.chaseMe (s.rs 2 + 256) .read).x.st = .ok ∧
     (s.chaseMe (0x40000000#64 + 256) .read).x.st = .absent ∧
     { s with jobs := [tJob 1 (.reshard 0x2000#64 4 64 (some { src := 0, dst := 0, sb := [], db := [], prog := 0x1300, before := { mem := [], lines := [] } }))] }.liveReshard
       s.me.ptroot (s.rs 2) 0 = some (4, 0x13)) :=
  ⟨rfl, rfl, by decide +kernel⟩

/-! Registers of the host, and events. -/

/-- What an engine read answers meets a condition. -/
def answers {α β : Type} (x : α ⊕ β) (f : α → Bool) : Bool :=
  match x with
  | .inl a => f a
  | .inr _ => false
/-- A launch record: version, address space 0x10000000, map at 0x3000, entry 0x1000. -/
def tRecord : Nat := 0x300 + 0x10000 * 2 ^ 268 + 0x3000 * 2 ^ 384 + 0x1000 * 2 ^ 448
/-- Queue 0 is enabled, its slot 1 holds the record, and the map names context 0 with bank 0. -/
def tTask : State :=
  { tm with
    mem := storeBytes tm.mem 0x3000 16 (2 ^ 64)
    queues := [(0, { Queue.reset with en := true })]
    slotRecords := [(1, BitVec.ofNat 1024 tRecord)] }
theorem test_witness_RegisterRows : (tb.queue 0).en = false ∧
    (match (tTask.setSlotStatus 0 (1 % 64) 1#64).validate 0 (Table.get 0 tTask.slotRecords (64 * 0 + 1 % 64)).toNat 0 with
      | (_, .ok ts _) => ts == [(0, 1#64, 0#16)]
      | _ => false) = true ∧
    (let s : State := { tb with me := { tb.me with status := .running } }
     (0x8000#64).getLsbD 15 = true ∧ (s.ctx 0).status ≠ .idle ∧ (s.ctx 0).gidx.getLsbD 63 = false ∧
     (s.ctx 0).preempt = false ∧ (s.ctx 0).stopping = none) ∧
    (BitVec.ofNat 64 (2 ^ 63)).getLsbD 63 = true ∧ (tb.link 0).up = false ∧ (8 ≤ (8#64).toNat % 32) ∧
    (tb.ctx 0).status = .idle ∧ (0 : Fin 64).val = tb.arosel.toNat := by decide +kernel
/-- Time has come for a step boundary and for both ticks. -/
def tLate : State := { tb with cycle := 4096 }
/-- Link 0 leads to module 0 in aligned mode; this is module 5. -/
def tAligned : State := { tb with module := 5, links := tb.links.set 0 { Link.reset with up := true, align := true } }
theorem test_witness_root_link (a b : Bool) (n : Nat) :
    State.rootLink { tAligned with aligned := a, alignLost := b, lastStep := n } = some 0 :=
  have leads : (tAligned.link 0).leads = 0 := Nat.le_zero.1 (Nat.min_le_left ..)
  State.rootLink_of_only (s := { tAligned with aligned := a, alignLost := b, lastStep := n })
    (show (tAligned.link 0).aligns = true by decide) (show (tAligned.link 0).leads < 5 by omega)
    (show ∀ i : Fin 12, i ≠ 0 → (tAligned.link i).aligns = false by decide)
theorem test_witness_ClockEvents : tLate.nextStep ≤ tLate.cycle ∧ tLate.mgmt.forcedExit = false ∧
    (let s : State := { tLate with
       mgmt := { Mgmt.reset with forcedExit := true }
       me := { tb.me with status := .waiting (.timeStep 1) } }
     s.nextStep ≤ s.cycle ∧ s.mgmt.forcedExit = true ∧ s.me.status = .waiting (.timeStep 1) ∧ 1#64 ≤ s.timeStep + 1 ∧
       s.me.woken = none) ∧ tb.cycle < tb.nextStep ∧ { tb with root := true }.root = true ∧ tb.rootLink ≠ some 0 ∧
    (∀ a ∈ [true, false], ∀ b ∈ [true, false],
      let s : State := { tAligned with aligned := a, alignLost := b }
      s.root = false ∧ s.aligned = a ∧ s.alignLost = b ∧
        s.logT = 12 ∧ s.cycle - s.nsCycles (s.link 0).latency = 0 ∧
        (s.timeStep = 0 ∧ s.lastStep ≤ 0 + 1 ∧ 0 ≤ s.lastStep + 1)) ∧
    tLate.ptsTicks < tLate.cycle / 256 ∧ tLate.nextTick ≤ tLate.cycle := by decide
theorem test_witness_alignment :
    (let s : State := { tLate with aligned := true, timeStep := 5 }
     s.nextStep ≤ s.cycle ∧ s.root = false ∧ s.aligned = true ∧ s.rootLink = none ∧
       s.markerLast.toNat + 3 ≤ (s.timeStep + 1).toNat ∧
       (s.timeStep + 1).toNat < { s with markerLast := 9 }.markerLast.toNat + 3) := by decide +kernel
theorem test_witness_far_marker :
    (let s : State := { tAligned with lastStep := 5 }
     s.cycle - s.nsCycles (s.link 0).latency = 0 ∧ ¬ (s.lastStep ≤ 0 + 0 + 1)) := by decide +kernel
/-- The copy command of `tCopyKind` has started. -/
def tCopying : State := { tGeo 64 with jobs := [{ tJob 1 tCopyKind with started := true }] }
/-- The same between two banks. -/
def tBankCopy : Job :=
  { tJob 1 (.copy 0x1000000000000000#64 (BitVec.ofNat 64 (2 ^ 60 + 2 ^ 22)) (tGeo 64).me.gShadow) with started := true }
theorem test_witness_CopyEvents :
    (let s : State := { tGeo 64 with jobs := [tJob 1 tCopyKind] }
     s.job 1 = some (tJob 1 tCopyKind) ∧ s.copyMayStart (tJob 1 tCopyKind) = true) ∧
    (let j := tJob 2 tCopyKind
     let s : State := { tGeo 64 with jobs := [tJob 1 tCopyKind, j] }
     s.job 2 = some j ∧ s.copyMayStart j = false) ∧
    (let s : State := { tGeo 64 with jobs := [tBankCopy] }
     s.job 1 = some tBankCopy ∧ copyEnd 0x1000000000000000#64 = some (.scratch 0 0) ∧
     copyEnd (BitVec.ofNat 64 (2 ^ 60 + 2 ^ 22)) = some (.scratch 1 0) ∧
     tBankCopy.failed = false ∧ tBankCopy.request = none ∧ tBankCopy.refused = false ∧ tBankCopy.src = [] ∧
     tBankCopy.completion = .counter 5 ∧ s.faults = [] ∧ Memory.wf s.mem = true ∧ s.retired = [] ∧ s.early = [] ∧
     nextPortion tBankCopy.done (copyPortions (.scratch 0 0) (tGeo 64).me.gShadow) = some (0, 0, 0, 64)) ∧
    (let j : Job := { tJob 1 (.copy 0x1000000000000000#64 (BitVec.ofNat 64 (2 ^ 56)) (tGeo 64).me.gShadow) with started := true }
     let s : State := { tGeo 64 with jobs := [j], aroTable := tb.aroTable.set 0 (BitVec.ofNat 128 (2 ^ 127 + 21 * 2 ^ 76 + 7 * 2 ^ 64 + 2 ^ 56)) }
     s.job 1 = some j ∧ copyEnd (BitVec.ofNat 64 (2 ^ 56)) = some (.virt (2 ^ 56)) ∧ s.remoteVa (BitVec.ofNat 64 (2 ^ 56)) = true ∧
     j.failed = false ∧ j.completion = .counter 5 ∧ s.faults = [] ∧ Memory.wf s.mem = true ∧ s.retired = [] ∧ s.early = []) ∧
    (let j : Job := { tJob 1 tCopyKind with started := true, failed := true }
     { tGeo 64 with jobs := [j] }.job 1 = some j) ∧
    (let j : Job := { tJob 1 tCopyKind with started := true, pos := 64 }
     copyBytes (tGeo 64).me.gShadow ≤ j.pos ∧ { tGeo 64 with jobs := [j] }.job 1 = some j) ∧
    (let j : Job := { tJob 1 tCopyKind with started := true }
     let s : State := { tGeo 64 with jobs := [j], me := { (tGeo 64).me with status := .running } }
     s.job 1 = some j ∧ j.failed = false ∧ j.pos < copyBytes (tGeo 64).me.gShadow ∧
     copyEnd 0x1000000000000000#64 ≠ none ∧ s.placeOf j.work = some 0 ∧ (s.ctx 0).ceerr.getLsbD 63 = false) ∧
    (let w : ForeignWrite := { root := 0x10000000#64, user := true, va := 0x2010#64, bytes := 64, poison := true
                               pts := 9, wid := 0, readCount := 0 }
     let c := chase tm w.root w.va .write w.user
     c.x.st = .ok ∧ tm.inRetired c.x.pa = false ∧ tm.detDrops w.wid c.x.e c.x.pa = false ∧ Memory.wf tm.mem = true ∧
     after (exec (.copyLineWrite (.foreignWrite w) ⟨5, false⟩) tm) (fun t => loadBytes t.mem 0x2010 48 == 5) = true) := by decide +kernel

/-- Movable pages, a barrier-free relocation of two lines, and a sweep of them. -/
def tReloc : Job := tJob 1 (.reloc 0x8000#64 0x4000#64 128 7)
def tSweep : Job := tJob 1 (.msweep 0x4000#64 128)
/-- The page at 1 GiB is movable and lies in bank 0, which has retired. -/
def tmBank : State :=
  let m := storeBytes (storeBytes tm.mem 0x10002008 8 (2 ^ 63 + 0x10003000)) 0x10003000 8 (2 ^ 63 + 0x10004000)
  { tm with
    mem := storeBytes m 0x10004000 8 (2 ^ 63 + 2 ^ 62 + 2 ^ 58 + 2 ^ 57 + 2 ^ 56 + 2 ^ 54 + 2 ^ 48)
    retired := [0], jobs := [tJob 1 (.msweep 0x40000000#64 128)] }
def tMap : Job := { tJob 1 (.smap 0x2000#64 0x0 128) with completion := .none, root := 0x10000000#64 }
def tMapState (j : Job) : State := { tm with jobs := [j], me := { tm.me with status := .running } }
theorem test_witness_RelocAndMapEvents :
    (let s : State := { tmMovable with jobs := [tReloc] }
     s.actingJob 1 = some tReloc ∧ tReloc.refused = false ∧ tReloc.completion = .counter 5 ∧
     answers (s.jobTranslate tReloc 0x4000#64) (fun x => movable x && x.pa == 0x4000) = true ∧
     answers (s.jobTranslate tReloc 0x8000#64) (fun x => movable x && x.pa == 0x8000) = true ∧
     (s.line 0x8000).mark = false ∧ tReloc.pos + 64 < 128) ∧
    ({ tReloc with started := true, pos := 64 }.pos + 64 ≥ 128) ∧
    (let s : State := { tmMovable with jobs := [tSweep], lines := [(0x4000 / 64, { LineData.clear with mark := true })] }
     s.actingJob 1 = some tSweep ∧ answers (s.jobTranslate tSweep 0x4000#64) (fun x => x.pa == 0x4000) = true ∧
     (s.line 0x4000).mark = true ∧ (s.line 0x4040).mark = false ∧ tSweep.refused = false ∧ tSweep.completion = .counter 5 ∧
     s.faults = [] ∧ s.inRetired 0x4000 = false) ∧
    (let j := tJob 1 (.msweep 0x40000000#64 128)
     tmBank.actingJob 1 = some j ∧ tmBank.faults = [] ∧ j.refused = false ∧ j.completion = .counter 5 ∧
       answers (tmBank.jobTranslate j 0x40000000#64) (fun x => tmBank.inRetired x.pa) = true) ∧
    (let s := tMapState tMap
     s.job 1 = some tMap ∧ tMap.started = false ∧ s.jobHeld tMap = false ∧ s.mapFirst tMap = true ∧ s.placeOf tMap.work = some 0 ∧
     tMap.completion = .none ∧ (s.ctx 0).regions = [] ∧ 0x2000 % 64 = 0 ∧ ¬ (0x2001 % 64 = 0) ∧
     (s.ctx 0).ceerr.getLsbD 63 = false) ∧
    (let j : Job := { tMap with started := true }
     let s := tMapState j
     s.job 1 = some j ∧ j.request = none ∧ j.refused = false ∧ j.pos < 128 ∧ s.retired = [] ∧ s.early = [] ∧
     answers (s.jobChase j.root j.user (0x2000#64 + BitVec.ofNat 64 j.pos) .read) (fun c => c.x.pa == 0x2000) = true) := by
  decide +kernel
/-- The record of slot 1 is queued. -/
def tQueued : State := tTask.appendRecord 0 1 0
/-- The same, ready since cycle 0, after a millisecond. -/
def tAged : State :=
  { tQueued.setHead 0 (fun e => { e with readySince := some 0 }) with cycle := 1200000 }
/-- A Saved instance whose area stands at 0x20000000. -/
def tSaved : Saved :=
  { work := 7, task := 8, area := 0x20000000, loc := 0, root := 0x10000000#64, banks := 1#64, since := 0, aged := 0
    regions := [], spawned := [], ecc := [], eccLater := [], m0 := [], m0Later := [], fastat := 0, gidx := 0
    ganged := false, fresh := false, reissue := { moved := false, loads := 0 } }
def tSavedState : State := { tm with mem := storeBytes tm.mem 0x20000000 2 0x300, saved := [tSaved] }
def tTaskJob : Job := { tJob 1 (.task 0x6000#64 0 1) with completion := .none }
theorem test_witness_TaskEvents :
    (tQueued.decision = .start 0 ∧
      (tQueued.dispatchable 0).any (fun h => h.1.targets == [(0, 1#64, 0#16)] && h.1.slot == 1) = true) ∧
    ((tAged.queue 0).entries.length = 1 ∧ tAged.headAges 0 = true) ∧
    ({ tSavedState with cycle := 1200000 }.saved = [tSaved] ∧ { tSavedState with cycle := 1200000 }.savedAges tSaved = true) ∧
    (let s : State := { tm with mem := storeBytes tm.mem 0x6000 128 tRecord, jobs := [tTaskJob] }
     s.job 1 = some tTaskJob ∧ answers (s.jobRead tTaskJob 0x6000#64 128) (fun r => r.1.slotState 0 1 ≠ 1 && r.1.slotState 0 1 ≠ 2 &&
       r.2.2.1 == tRecord) = true) ∧
    (let j := { tTaskJob with kind := .task 0x40000000#64 0 1 }
     let s : State := { tm with jobs := [j] }
     s.job 1 = some j ∧ j.request = none ∧ j.refused = false ∧
     (match s.jobRead j 0x40000000#64 128 with | .inr (_, .absent va) => va == 0x40000000#64 | _ => false) = true) ∧
    (let j := tJob 1 (.tdep 5 1)
     { tm with jobs := [j] }.job 1 = some j) ∧
    (tSavedState.decision = .resume tSaved ∧ tSaved.gidx.getLsbD 63 = false ∧
      tSavedState.resumable tSaved = some [(tSaved, 0)] ∧ loadBytes tSavedState.mem 0x20000000 2 = 0x0300) := by
  decide +kernel
/-- A context that runs, whose cluster has a pool of areas. -/
def tRuns : State := { tHandler with me := { Ctx.reset with status := .running, atPoint := true, work := 3 } }
/-- A due load of s5. -/
def tLoad : Outstanding := { due := 8, writes := [.scalar 5 7#64 false], base := none, ecc := false, written := false }
theorem test_witness_ContextEvents :
    (let c : Ctx := { Ctx.reset with status := .waiting .fa, woken := some .completes }
     c.stopping = none ∧ ({ tb with me := c }.ctx 0).status = .waiting .fa) ∧
    (let s : State := { tb with cycle := 50, me := { Ctx.reset with status := .ready, startAt := some 40 } }
     (s.ctx 0).startAt = some 40 ∧ 40 ≤ s.cycle ∧ (s.ctx 0).status = .ready ∧ (s.core 0).current ≠ some (Fin.ofNat 4 0)) ∧
    (let s : State := { tb with cycle := 9, me := { Ctx.reset with m0 := [tLoad] } }
     s.me.m0[0]? = some tLoad ∧ tLoad.due ≤ s.cycle ∧ tLoad.written = false ∧ (s.me.m0.filter fun p => p = tLoad) = [tLoad] ∧
       tLoad.ecc = false ∧ s.me.inflight = [] ∧ tLoad.writes = [.scalar 5 7#64 false]) ∧
    (let s : State := { tb with cycle := 9, me := { Ctx.reset with m0 := [tLoad], inflight := [tFlight] } }
     s.me.m0[0]? = some tLoad ∧ (s.me.m0.filter fun p => p = tLoad) = [tLoad] ∧ s.me.inflight = [tFlight] ∧
       tFlight.due ≤ s.cycle) ∧
    (let p : Outstanding := { tLoad with due := 4, writes := [.scalar 5 1#64 false] }
     let s : State := { tb with cycle := 9, me := { Ctx.reset with m0 := [p, tLoad] } }
     s.me.m0[1]? = some tLoad ∧ (s.me.m0.filter fun q => q = tLoad) = [tLoad] ∧ p.due < tLoad.due ∧ p.written = false) ∧
    (let p : Outstanding := { tLoad with due := 30 }
     let q : Outstanding := { tLoad with written := true, ecc := true }
     (tLoad.due < p.due ∧ p ≠ tLoad) ∧ q.written = true ∧ q.ecc = true ∧ q ≠ tLoad) ∧
    (let s : State := { tRuns with me := { tRuns.me with preempt := true } }
     (s.ctx 0).stopping = none ∧ s.preemptible 0 = true ∧ (s.ctx 0).gidx.getLsbD 63 = false ∧
     (s.cluster 0).freeArea = some 0 ∧ s.jobs = [] ∧ (s.fa 0).running = none ∧ s.noPa (areaPa (s.cluster 0) 0) = false) ∧
    (∀ p ∈ [(64, true), (32, false)],
     let j : Job := { tJob 1 tCopyKind with work := 3, started := true, pos := p.1, quiesce := some 0 }
     let s : State := { tRuns with jobs := [j], me := { tRuns.me with stopping := some 0 } }
     (s.ctx 0).stopping = some 0 ∧ s.jobs = [j] ∧ j.work = (s.ctx 0).work ∧ j.completion = .counter 5 ∧
     (s.fa 0).running = none ∧ s.noPa (areaPa (s.cluster 0) 0) = false ∧ j.copyEnded (tGeo 64).me.gShadow = p.2 ∧
     (s.ctx 0).withdrawn.length < 64 ∧ (s.ctx 0).latched.length ≤ 64) ∧
    (let s : State := { tArray none none with me := { tb.me with banks := 1#64, status := .running, faCall := some tCall16 } }
     (s.ctx 0).faCall = some tCall16 ∧ (s.ctx 0).status = .running ∧ (s.fa 0).full = false ∧
     (s.actAs 0).faCheck tCall16 = .accepted tCall16) ∧
    (let s : State := { tArray (some tCall16) none with me := { tb.me with banks := 1#64, status := .running, faCall := some tCall16 } }
     (s.fa 0).full = false ∧ (s.actAs 0).faCheck tCall16 = .accepted tCall16 ∧ (s.fa 0).running ≠ none) := by
  decide +kernel

/-- A lead of two cores, the second of which waits for its stream. -/
def tLead : FaCall := { tCall16 with routine := 2, params := tCall16.params.set 1 (BitVec.ofNat 128 (2 * 2 ^ 36)) }
def tFollow : FaCall := { tCall16 with routine := 2, descs := [{ operand := 0, word := BitVec.ofNat 256 (3 * 2 ^ 252) }] }
def tCast : State :=
  { tb with cores := [(0, { Core.reset with fa := { FaUnit.reset with running := some tLead, started := true } }),
                      (1, { Core.reset with fa := { FaUnit.reset with running := some tFollow, started := true } })] }
def tImage : Job := { tJob 1 (.fampw 0x2000#64) with completion := .none }
theorem test_witness_ArrayEvents :
    (let c : FaCall := { tCall16 with routine := 0 }
     let u := (tArray (some c) none).fa 0
     u.running = some c ∧ u.started = false ∧ c.dead = none ∧ u.cutOff c = false ∧ c.routine < 16 ∧ u.startStatus c = 0) ∧
    (let c : FaCall := { tCall16 with reissued := some { moved := true, loads := 0 } }
     let u := (tArray (some c) none).fa 0
     u.running = some c ∧ u.started = false ∧ c.dead = none ∧ u.cutOff c = true) ∧
    (let c : FaCall := { tCall16 with routine := 2 }
     let u := (tArray (some c) none).fa 0
     u.running = some c ∧ c.dead = none ∧ u.cutOff c = false ∧ u.startStatus c ≠ 0 ∧
     { tArray (some c) none with me := { tb.me with status := .running } }.placeOf c.work = some 0) ∧
    (let c : FaCall := { tCall16 with dead := some 3 }
     let u := (tArray (some c) none).fa 0
     u.running = some c ∧ u.started = false ∧ c.dead = some 3) ∧
    ((tCast.fa 0).running = some tLead ∧ (tCast.fa 0).started = true ∧ tLead.leads 0 = true ∧
      tCast.castReady 0 tLead = true) ∧
    (let c : FaCall := { tCall16 with routine := 0, vec := 1 }
     let s : State := { tb with
       cycle := 100
       cores := [(0, { Core.reset with fa := { FaUnit.reset with running := some c, started := true } })] }
     let u := s.fa 0
     u.running = some c ∧ u.started = true ∧ c.total ≤ c.vec ∧ u.firstBeat + c.beats ≤ s.cycle ∧ c.routine < 16) ∧
    (let s : State := { tm with mem := storeBytes tm.mem 0x2000 8 (4096 + 16 * 2 ^ 32), jobs := [tImage] }
     s.job 1 = some tImage ∧ tImage.request = none ∧ s.jobHeld tImage = false ∧
     answers (s.jobRead tImage 0x2000#64 64) (fun r => r.2.2.1 == 4096 + 16 * 2 ^ 32 &&
       r.1.mgmt.rollback ≤ bits r.2.2.1 63 48 && answers (r.1.jobRead tImage 0x2000#64 4096) fun _ => true) = true) ∧
    (let m : Mgmt := { Mgmt.reset with rollback := 1 }
     let s : State := { tm with mem := storeBytes tm.mem 0x2000 8 (4096 + 16 * 2 ^ 32), jobs := [tImage], mgmt := m }
     answers (s.jobRead tImage 0x2000#64 64) (fun r => bits r.2.2.1 63 48 < r.1.mgmt.rollback) = true) := by decide +kernel
def tCollJob (c : Option Coll) : Job := { tJob 1 (.coll 0x6000#64 c) with completion := .none }
def tCollState (r : Nat) (c : Option Coll) : State :=
  { tm with mem := tCollMem r, jobs := [tCollJob c], me := { tm.me with status := .running } }
/-- The record of a tensor of four bytes on one module, with its base table at `a`. -/
def tTlr (a : Nat) : Nat :=
  0x300 + 2 ^ 16 + 7 * 2 ^ 24 + 2 ^ 42 + (2 ^ 64 + 2 ^ 80 + 2 ^ 96 + 2 ^ 112) + 4 * 2 ^ 128 + 4 * 2 ^ 320 + 2 ^ 512 +
    a * 2 ^ 896
/-- What its job reads. -/
def tPlan : ShardPlan := { src := tTlr 0x7000, dst := tTlr 0x7100, sb := [0x9000], db := [0xA000], prog := 1, before := { mem := [], lines := [] } }
/-- A reshard block at 0x6000 with progress state `st`: from 0x9000 to 0xA000. -/
def tShard (st : Nat) (plan : Option ShardPlan) : State :=
  let m := storeBytes tm.mem 0x6000 320 (tTlr 0x7000 + tTlr 0x7100 * 2 ^ 1024 + st * 2 ^ 2048)
  let m := storeBytes (storeBytes m 0x7000 16 0x9000) 0x7100 16 0xA000
  { tm with mem := m, jobs := [{ tJob 1 (.reshard 0x6000#64 0 0 plan) with pos := b2n plan.isSome }] }
/-- The job with the lines of its record, and with those of its group table. -/
def tCollRead (r g : Nat) : State × Job × Option EngineStop :=
  State.readOnce false 2 { tCollState r none with mem := storeBytes (tCollState r none).mem 0x7000 4 g } (tCollJob none)
    0x6000#64 64
def tCollGroup (r g : Nat) : State × Job × Option EngineStop :=
  State.readOnce false (2 / 32 + 2) (tCollRead r g).1 { (tCollRead r g).2.1 with foot := collFoot (tCollJob none) r } 0x7000#64 4
/-- The same collective, to which both members contribute. -/
def tCollSum : Nat := tCollRecord - 3 * 2 ^ 16
theorem test_witness_CollectiveEvents :
    (let j := tCollJob none
     let s := tCollState tCollRecord none
     s.job 1 = some j ∧ j.request = none ∧ s.jobHeld j = false ∧ j.ended = none ∧ j.loc < 1024 ∧ s.precancels = []) ∧
    ((tCollRead 0x100 1).2.2 = none ∧ (tCollRead 0x100 1).2.1.kept 0x6000 64 = some 0x100 ∧
      (tCollRead 0x100 1).1.collCheck (tCollRead 0x100 1).2.1 0x100 = some 1 ∧
      answers (State.jobWrite (tCollRead 0x100 1).2.1 false 2 (tCollRead 0x100 1).1 0 0x6030#64 8 (2 ^ 32)) (fun _ => true) = true) ∧
    (∀ r ∈ [tCollRecord, tCollSum],
      (tCollRead r 1).2.2 = none ∧ (tCollRead r 1).2.1.kept 0x6000 64 = some r ∧
      (tCollRead r 1).1.collCheck { (tCollRead r 1).2.1 with foot := collFoot (tCollJob none) r } r = none ∧
      (tCollRead r 1).1.jobHeld { (tCollRead r 1).2.1 with foot := collFoot (tCollJob none) r } = false ∧
      (tCollGroup r 1).2.2 = none ∧ (tCollGroup r 1).2.1.kept 0x7000 4 = some 1 ∧
      (tCollGroup r 1).1.groupCheck r (groupOf 2 1) = none) ∧
    ((tCollGroup tCollRecord 0).2.1.kept 0x7000 4 = some 0 ∧
      (tCollGroup tCollRecord 0).1.groupCheck tCollRecord (groupOf 2 0) = some 6 ∧
      answers (State.jobWrite (tCollGroup tCollRecord 0).2.1 false 2 (tCollGroup tCollRecord 0).1 0 0x6030#64 8 (6 * 2 ^ 32))
        (fun _ => true) = true) := by decide +kernel
/-- An earlier copy, whose footprint the job meets once the record has been read. -/
def tBefore : Job := { tJob 0 tCopyKind with foot := collFoot (tCollJob none) tCollRecord }
theorem test_witness_coll_held :
    (let s : State := { tCollState tCollRecord none with jobs := [tBefore, tCollJob none] }
     let q := State.readOnce false 2 s (tCollJob none) 0x6000#64 64
     let k : Job := { q.2.1 with foot := collFoot (tCollJob none) tCollRecord }
     s.job 1 = some (tCollJob none) ∧ s.jobHeld (tCollJob none) = false ∧ q.2.2 = none ∧ q.2.1.kept 0x6000 64 = some tCollRecord ∧
     q.1.collCheck k tCollRecord = none ∧ q.1.jobHeld k = true) := by decide +kernel
theorem test_witness_lost :
    (let q := tCollGroup tCollRecord 1
     let c := collOf q.1 q.2.1 tCollRecord (groupOf 2 1)
     q.1.countersLost c = false ∧ c.contributes = false) ∧
    (let q := State.readOnce false 2 { tCollState tCollRecord none with retired := [0], mem := storeBytes (tCollState tCollRecord none).mem 0x7000 4 1 }
       (tCollJob none) 0x6000#64 64
     let p := State.readOnce false (2 / 32 + 2) q.1 { q.2.1 with foot := collFoot (tCollJob none) tCollRecord } 0x7000#64 4
     let c := collOf p.1 p.2.1 tCollRecord (groupOf 2 1)
     p.1.countersLost c = true ∧ c.contributes = false ∧ p.2.2 = none) := by decide +kernel
theorem test_witness_sources :
    let q := tCollGroup tCollSum 1
    let c := collOf q.1 q.2.1 tCollSum (groupOf 2 1)
    let k0 : Job := { q.2.1 with
      started := true, src := [], stale := [], kind := .coll 0x6000#64 (some { c.spoilt q.2.1.stale with read := false }) }
    (collOf (tCollGroup tCollRecord 1).1 (tCollGroup tCollRecord 1).2.1 tCollRecord (groupOf 2 1)).contributes = false ∧
    c.contributes = true ∧ c.fmt = 0 ∧ c.tileCount = 1 ∧ c.destOf 0 c.rank = some 0 ∧
    (State.readOnce true (1024 / 64 + 2) ((q.1.counterWrites c).putJob k0) k0 c.src 1024).2.2 = none := by decide +kernel
/-- The tile of the collective of `tColl`, and one that waits for the whole values of member 1. -/
def tTile : CollTile :=
  { headers := [], planes := [], wholes := [], k := 0, fin := false, can := false, shown := false, acquired := false, spoiled := false }
def tWhole : CollTile := { tTile with wholes := [(0, [])] }
theorem test_witness_tiles :
    (∀ b ∈ [true, false],
      let c : Coll := { tColl 0 false with read := b }
      let j := tCollJob (some c)
      let s := tCollState 0 (some c)
      s.job 1 = some j ∧ s.collOfCid c.cid = some (j, 0x6000#64, c) ∧ j.request = none ∧ c.destOf 0 1 = some 0 ∧
      1 ≠ c.rank ∧ c.tiles[0]? = some tTile ∧ tTile.fin = false ∧
      (∀ h ∈ ([{ tTile with headers := [(1, 3, false)] }, { tTile with planes := [(1, 0, 5)] },
          { tTile with wholes := [(1, [0])] }] : List CollTile),
        Coll.ready { c with tiles := c.tiles.set 0 h } 0 h ≤ tTile.k) ∧
      (tTile.headers.any fun h => h.1 = 1) = false ∧ tTile.plane 1 0 = none ∧ tTile.wholes.lookup 1 = none) := by
  decide +kernel
theorem test_witness_tile_planes :
    (∀ v ∈ [0x0200, 0x0300],
      let c : Coll := { tColl 0 false with version := v, whole := true, tiles := [tWhole] }
      let y' : CollTile := { tWhole with wholes := [(0, []), (1, [1#32])] }
      let c' : Coll := { c with tiles := [y'] }
      let j := tCollJob (some c)
      let s := tCollState 0 (some c)
      s.job 1 = some j ∧ s.collOfCid c.cid = some (j, 0x6000#64, c) ∧ c.destOf 0 1 = some 0 ∧ c.tiles[0]? = some tWhole ∧
      tWhole.wholes.lookup 1 = none ∧ tWhole.k < c'.ready 0 y' ∧ c.read = true ∧
      (let j' : Job := { j with kind := .coll 0x6000#64 (some c') }
       State.writeStop j' 18 (s.putJob j') 0x4000#64 1024 = none ∧ tWhole.spoiled = false ∧
         (State.writeTile j' 18 (s.putJob j') j.pts 0x4000#64 1024 (packBits 32 (c'.tileValue 0 y' (c'.ready 0 y')))).2.2 =
           none) ∧ s.faults = [] ∧ s.inRetired c.cnt = false ∧
      inBank c.cnt = true) := by decide +kernel
theorem test_witness_coll_end :
    (let c := tColl 2 true
     let j : Job := { tCollJob (some c) with completion := .counter 5 }
     let s : State := { tCollState 0 (some c) with jobs := [j] }
     let j' : Job := { j with kind := .coll 0x6000#64 (some { c with told := true }) }
     j.request = none ∧ c.read = true ∧ c.finished = true ∧ c.version ≠ 0x0200 ∧ s.job 1 = some j ∧
     answers (State.jobWrite j' false 2 (s.putJob j') j.pts 0x6030#64 8 0) (fun _ => true) = true) ∧
    (tColl 1 false).finished = false ∧
    (let j : Job := { tCollJob none with kind := .coll 0x40000000#64 (some { tColl 2 true with told := true }) }
     let s : State := { tCollState 0 none with jobs := [j] }
     s.job 1 = some j ∧ j.refusedPage 0x40000030#64 = false ∧
     (match State.jobWrite j false 2 (s.putJob j) j.pts 0x40000030#64 8 0 with
       | .inr (_, .absent va) => va == 0x40000030#64
       | _ => false) = true) := by decide +kernel
/-- What the start of the job of a shard block reads. -/
def tShardRead (s : State) (f : State → Job → Nat → Bool) : Bool :=
  s.jobs.all fun j => j.id == 0 || !s.jobHeld j && j.request.isNone && !j.refused && j.ending.isNone && j.completion == .counter 5 &&
    answers (s.jobRead j 0x6000#64 320) fun r => f r.1 { j with pts := r.2.1 } r.2.2.1
theorem test_witness_reshard :
    tShardRead (tShard 2 none) (fun u j v => bits (blockProg v) 7 0 == 2 &&
      u.liveReshard j.root 0x6000#64 1 == none) = true ∧
    (let s := tShard 2 none
     let s : State := { s with jobs := s.jobs ++ [tJob 2 (.reshard 0x6000#64 0 0 (some tPlan))] }
     (s.liveReshard 0x10000000#64 0x6000#64 1).isSome = true ∧
     answers (s.writeProgress (tJob 1 (.preq 0)) 0x6000#64 (progressOf 2 2 0x0B)) (fun _ => true) = true) ∧
    tShardRead (tShard 0 none) (fun u j v => bits (blockProg v) 7 0 == 0 && answers (u.validatePlan j v) fun r =>
      match r.2.2 with
      | .inl p =>
        let j : Job := { j with pts := r.2.1, foot := planFoot j.root 0 p }
        !r.1.jobHeld j && answers (r.1.writeProgress j 0x6000#64
          { old := blockProg v, state := 1, status := 0, cursor := 0, bytes := 0, chk := planHash p }) fun _ => true
      | .inr _ => false) = true ∧
    (let early : Job := { tJob 0 tCopyKind with foot := planFoot 0x10000000#64 0 tPlan }
     let s : State := { tShard 0 none with jobs := early :: (tShard 0 none).jobs }
     tShardRead s (fun u j v => answers (u.validatePlan j v) fun r => match r.2.2 with
       | .inl p => r.1.jobHeld { j with pts := r.2.1, foot := planFoot j.root 0 p }
       | .inr _ => false) = true ∧
     s.jobs.any (fun j => j.id == 1 && s.jobHeld { j with foot := planFoot 0x10000000#64 0 tPlan }) = true) ∧
    tShardRead (tShard 1 none) (fun u j v => answers (u.validatePlan j v) fun r =>
      match r.2.2 with
      | .inl p => bits (blockProg v) 255 192 != planHash p
      | .inr _ => false) = true ∧
    tShardRead { tShard 0 none with mem := storeBytes (tShard 0 none).mem 0x6000 8 0 } (fun u j v =>
      answers (u.validatePlan j v) fun r => match r.2.2 with | .inl _ => false | .inr _ => true) = true := by decide +kernel
theorem test_witness_blocks :
    (let s := tShard 1 (some tPlan)
     ∀ j ∈ s.jobs, s.job 1 = some j ∧ j.kind = .reshard 0x6000#64 0 0 (some tPlan) ∧ j.request = none ∧ j.refused = false ∧
       j.ending = none ∧ j.pos ≠ 0 ∧ positionOf s.module.toNat tPlan.db = some 0 ∧
       (shardBlocks tPlan.dst 0)[0]? = some [0] ∧ (shardBlocks tPlan.dst 0)[1]? = none ∧
       answers (gatherPieces tPlan s.module.toNat j (blockPieces tPlan s.module.toNat 0 [0]) [] [] s j.pts) (fun u =>
         answers (writeLines j u.2.2 u.1 u.2.1) fun w =>
           answers (w.1.writeProgress j 0x6000#64 (tPlan.progress 1 0 1 4)) fun _ => true) = true ∧
       answers ((s.keepBefore j.root 0x6000#64 none).writeProgress j 0x6000#64 (tPlan.progress 2 0 1 4)) (fun _ => true) = true ∧
       answers ((s.keepBefore j.root 0x6000#64 (some tPlan.before)).writeProgress j 0x6000#64 (tPlan.progress 3 0x13 0 0)) (fun _ => true) = true) := by decide +kernel
theorem test_witness_digest (c : Coll) : c.digest + 1 ≠ c.digest := by omega

/-- The acting context waits for a page request. -/
def tRequest : PageRequest := { id := 4, va := 0x40000000#64, root := 0x10000000#64, home := 0, job := none, loc := some 0 }
def tPaging : State :=
  { tm with requests := [tRequest], me := { tm.me with status := .waiting (.page 0x40000000#64) } }
/-- A mapped region whose page is released. -/
def tRegion : MapRegion := { base := 0x2000#64, start := 0, len := 64, dirty := [], stale := false }
theorem test_witness_MemoryEvents : { tm with corrections := [5] }.corrections.contains 5 = true ∧
    tm.corrections.contains 5 = false ∧
    (let n := 0x1000000000000 / 64
     0x1000000000000 ≤ 64 * n ∧ 64 * n < 0x1000400000000 ∧ 64 * n % 0x400000 < 0x300000 ∧ tm.retired = [] ∧
     tm.faultsAt n = [] ∧ tm.inRetired (64 * n) = false ∧ { tm with faults := [(n, .cellSingle 3)] }.faultsAt n = [.cellSingle 3]) ∧
    (tPaging.requests[0]? = some tRequest ∧ tRequest.job = none ∧ tRequest.loc = some tPaging.cur ∧
     tPaging.me.status = .waiting (.page tRequest.va) ∧ tPaging.me.woken = none ∧ tPaging.noPa 0x10002008 = false ∧
     tPaging.noPa (2 ^ 60) = true) ∧
    (let s : State := { tm with me := { tm.me with regions := [tRegion] } }
     s.regionMeets s.me.ptroot 0x2000 0x1000 tRegion = true) ∧
    Memory.wf tm.mem = true ∧ (0x8000000000000 ≤ 64 * 0x200000000000 ∧ 64 * 0x200000000000 < 0x10000000000000) ∧
    (let m : Mgmt := { Mgmt.reset with hdm := 1 }
     let s : State := { tm with mgmt := m }
     64 * 5 < 0x6000000000 ∧ Memory.wf s.mem = true ∧ s.mgmt.cxl = true ∧ s.mgmt.hdm.getLsbD (64 * 5 / 2 ^ 30) = true) ∧
    tm.mgmt.hdm.getLsbD (64 * 5 / 2 ^ 30) = false := by decide +kernel
/-- Link 0 is up, or trains. -/
def tLink (up training : Bool) : State :=
  { tb with links := tb.links.set 0 { Link.reset with up := up, training := training } }
theorem tFlit_nat (a : BitVec 64) (k : Nat) : (a ++ 0#k).toNat = a.toNat * 2 ^ k := by
  simp [BitVec.toNat_append, Nat.shiftLeft_eq]
theorem tFlit_check (a : BitVec 64) (k : Nat) : (a ++ 0#k).extractLsb' k 64 = a := by
  apply BitVec.eq_of_toNat_eq
  rw [BitVec.extractLsb'_toNat, tFlit_nat, Nat.shiftRight_eq_div_pow, Nat.mul_div_cancel _ (Nat.two_pow_pos k)]
  exact Nat.mod_eq_of_lt a.isLt
theorem tFlit_body (a : BitVec 64) (k : Nat) : (a ++ 0#k).toNat % 2 ^ k = 0 := by
  rw [tFlit_nat, Nat.mul_mod_left]
theorem tFlit_field (a : BitVec 64) (j : Nat) : bits (a ++ 0#(j + 29)).toNat 28 25 = 0 := by
  rw [tFlit_nat, show 2 ^ (j + 29) = 2 ^ j * 2 ^ 4 * 2 ^ 25 by rw [Nat.mul_assoc, show 2 ^ 4 * 2 ^ 25 = 2 ^ 29 by decide, Nat.pow_add], ← Nat.mul_assoc]
  unfold bits
  rw [Nat.mul_div_cancel _ (by decide), ← Nat.mul_assoc, show 28 + 1 - 25 = 4 by decide, Nat.mul_mod_left]
theorem tFlit_seq (a : BitVec 64) (j : Nat) : (a ++ 0#(j + 12)).extractLsb' 0 12 = 0#12 := by
  apply BitVec.eq_of_toNat_eq
  rw [BitVec.extractLsb'_toNat, tFlit_nat, Nat.shiftRight_zero, Nat.pow_add, ← Nat.mul_assoc, Nat.mul_mod_left]
  decide
/-- A flit of zeros but for its CRC field, which is off by `d`. -/
def tFlit (d : BitVec 64) : BitVec 2048 := (Config.crc64 0 + d) ++ 0#1984
theorem tFlit_ok (d : BitVec 64) :
    (tFlit d).extractLsb' 1984 64 = Config.crc64 ((tFlit d).toNat % 2 ^ 1984) + d ∧ bits (tFlit d).toNat 28 25 = 0 ∧
      (tFlit d).extractLsb' 0 12 = 0#12 :=
  ⟨(tFlit_check _ 1984).trans (congrArg (fun n => Config.crc64 n + d) (tFlit_body _ 1984).symm), tFlit_field _ 1955,
    tFlit_seq _ 1972⟩
theorem test_witness_ManagementEvents :
    (tFlit 0).extractLsb' 1984 64 = Config.crc64 ((tFlit 0).toNat % 2 ^ 1984) ∧
    (tFlit 1).extractLsb' 1984 64 ≠ Config.crc64 ((tFlit 1).toNat % 2 ^ 1984) ∧ bits (tFlit 0).toNat 28 25 ≠ 3 ∧
    (tFlit 0).extractLsb' 0 12 = ((tLink true false).link 0).nextSeq ∧ ((tLink true false).link 0).up = true ∧
    ((tLink true false).link 0).naking = false := by
  refine ⟨(tFlit_ok 0).1.trans (BitVec.add_zero _), fun h => ?_, by rw [(tFlit_ok 0).2.1]; decide,
    (tFlit_ok 0).2.2.trans (by decide), by decide, by decide⟩
  have := (tFlit_ok 1).1.symm.trans h
  bv_omega
/-- The state of link 0 in replay, and links that train. -/
theorem test_witness_links :
    (∀ n ∈ [0, 7], ∀ b ∈ [true, false],
      let l : Link := { Link.reset with up := true, naking := b, fails := n, nextSeq := 1 }
      let s : State := { tb with links := tb.links.set 0 l }
      s.link 0 = l ∧ (s.link 0).up = true ∧ (s.link 0).naking = b ∧ (s.link 0).nextSeq ≠ 0#12 ∧
        ((s.link 0).fails < 7 ∨ 7 ≤ (s.link 0).fails)) ∧
    ((tLink false true).link 0).up = false ∧ ((tLink false true).link 0).training = true ∧
    ((tLink true false).link 0).training = false ∧
    (∀ l ∈ [[], [0, 0]], ∀ k ∈ [7, 8],
      let y : Link := { Link.reset with up := true, retrains := l, naks := k }
      let s : State := { tb with links := tb.links.set 0 y }
      let n := ((s.link 0).retrains.filter fun t => decide (s.cycle < t + s.secondCycles)).length
      (s.link 0).up = true ∧ (n < 2 ∨ 2 ≤ n) ∧ (k + 1 < 9 ∨ 9 ≤ k + 1)) ∧
    ([] : List Nat).length < 64 ∧ tb.mgmt.rollback ≤ 1 ∧
    1 < { tb.mgmt with rollback := 2 }.rollback ∧ (List.range 384).countP (fun i => (1#384).getLsbD i) ≤ 256 := by
  decide +kernel
theorem test_witness_RegisterFile : (3 : SReg) ≠ 0 ∧ (1 : PReg) ≠ 0 ∧ (2 : MReg) ≠ 0 ∧
    { Ctx.reset with inflight := [tFlight] }.inflight = [tFlight] ∧
    [tFlight, { tFlight with slot := 1 }].Pairwise (fun a b => a.due < b.due ∨ a.due = b.due ∧ a.slot ≤ b.slot) := by
  decide
theorem test_witness_StackErrors : (3 < 8 ∧ 0 < 64 ∧ 63 < 64 ∧ 17 < 18 ∧ 393215 < 393216) ∧
    (let s : State := { tb with stkerr := stkerrWord 2 0 0 0 0 false false }
     (s.stkerr.getLsbD 63 = true ∧ 2 ≤ (s.stkerr.extractLsb' 60 3).toNat) ∧
     ¬ (s.stkerr.getLsbD 63 = true ∧ 3 ≤ (s.stkerr.extractLsb' 60 3).toNat)) ∧ ¬ tb.stkerr.getLsbD 63 = true := by decide
/-- The machine with one word placed, before its first step. -/
def tPlaced : State := State.reset.withFetchWord 32 0x08008005
theorem test_witness_StepRunsDecoded :
    ({ tb with inputs := [.stkerrClear] }.inputs = [.stkerrClear] ∧ tb.mgmt.stopped = false ∧
      resets .deviceReset = true ∧ resets .stkerrClear = false ∧ { Mgmt.reset with tripped := true }.stopped = true ∧
      { Mgmt.reset with noBoot := true }.stopped = true) ∧
    (tPlaced.mayIssue = true ∧ tPlaced.engines = false ∧
      (let s : State := { tPlaced with me := { tPlaced.me with nextAt := 5 } }
       s.inputs = [] ∧ s.mgmt.stopped = false ∧ s.waitDone.isNone = true ∧ s.dueEvents = [] ∧ s.mayIssue = false) ∧
      (let s : State := { tPlaced with engines := true, scrubNext := scrubTotal }
       s.waitDone.isNone = true ∧ s.dueEvents = [] ∧ s.engines = true ∧ s.freeEvents = []) ∧
      (let s : State := { tPlaced with engines := true }
       s.waitDone.isNone = true ∧ s.dueEvents = [] ∧ s.freeEvents = [.scrub])) ∧
    (tLate.inputs = [] ∧ tLate.mgmt.stopped = false ∧ tLate.waitDone.isNone = true ∧
      tLate.dueEvents.head? = some .timeStepBoundary) ∧
    (tPlaced.inputs = [] ∧ tPlaced.mgmt.stopped = false ∧ tPlaced.waitDone.isNone = true ∧ tPlaced.dueEvents = [] ∧
      tPlaced.me.held = none ∧ tPlaced.me.issues = true ∧
      (tPlaced.core (coreOf tPlaced.cur)).current = some (Fin.ofNat 4 tPlaced.cur) ∧
      (tPlaced.core (coreOf tPlaced.cur)).notBefore ≤ tPlaced.cycle ∧ tPlaced.me.nextAt ≤ tPlaced.cycle ∧
      tPlaced.me.faCall = none ∧ tPlaced.me.gidx.getLsbD 63 = false ∧ tPlaced.me.ganged = false ∧
      (let u : State := { tPlaced with me := { tPlaced.me.arrive tPlaced.cycle with atPoint := false } }
       u.fetch = .ok [0x08008005] ∧
       decodeBundle u.me.delay.isSome [0x08008005] = { syls := [(0, .addi 1 0 5)], errs := [] } ∧
       stallUntil u.me u.cycle [(0, .addi 1 0 5)] = none ∧ preTrap (u.fetchReads 1) { syls := [(0, .addi 1 0 5)], errs := [] } = none)) := by
  decide +kernel
theorem test_witness_EncodeDecode : (Instr.addi 1 0 (-2 ^ 64)).isSyllable = true ∧
    (Instr.addi 1 0 (-2 ^ 64)).wellFormed = true := by decide
theorem test_witness_MemoryFormKept : Memory.wf tPlaced.mem = true ∧ after (step tPlaced) (fun _ => true) = true := by
  decide +kernel

end

end Sys2Proof.Tests
end

/-! PROOFS. STKERR (R25): the layout of a record of the stacked layers, when it replaces the latched one, and how it is
cleared. -/

namespace Sys2Proof.Machine

/-- A record replaces the latched one where it is the more severe or none is latched; a record of the log touches
STKERR no more (R24, R25). -/
theorem State.latchError_stkerr (s : State) (k c b g w : Nat) (wr e : Bool) :
    (s.latchError k c b g w wr e).stkerr =
      if s.stkerr.getLsbD 63 = false ∨ bits s.stkerr.toNat 62 60 < k then stkerrWord k c b g w wr e else s.stkerr := by
  obtain ⟨m, h⟩ := State.post_eq { s with
    stkerr := if s.stkerr.getLsbD 63 = false || bits s.stkerr.toNat 62 60 < k then stkerrWord k c b g w wr e else s.stkerr }
    (if k = 5 then 0x0002 else 0x0001) (if k = 1 || k = 2 then 1 else 2) (c / 16) (stkerrWord k c b g w wr e).toNat
  have latched : (s.latchError k c b g w wr e).stkerr = _ := congrArg State.stkerr h
  rw [latched]
  simp only [Bool.or_eq_true, decide_eq_true_eq]
/-- To classify an error latches its record (R24). -/
theorem State.stackError_stkerr (s : State) (k c b g w : Nat) (wr e : Bool) :
    (s.stackError k c b g w wr e).stkerr =
      if s.stkerr.getLsbD 63 = false ∨ bits s.stkerr.toNat 62 60 < k then stkerrWord k c b g w wr e else s.stkerr :=
  State.latchError_stkerr _ k c b g w wr e

/-- A flag is one bit. -/
theorem b2n_lt_two (b : Bool) : b2n b < 2 := by cases b <;> decide
/-- A bit of a word, as a digit of its number. -/
theorem getLsbD_eq_decide_digit {w : Nat} (x : BitVec w) (i : Nat) : x.getLsbD i = decide (x.toNat / 2 ^ i % 2 = 1) := by
  rw [BitVec.getLsbD, Nat.testBit_eq_decide_div_mod_eq]
/-- A flag is what its number says. -/
theorem decide_b2n (b : Bool) : decide (b2n b = 1) = b := by cases b <;> decide
/-- KIND of a word. -/
theorem bits_kind (x : Word) : bits x.toNat 62 60 = (x.extractLsb' 60 3).toNat := by
  rw [BitVec.extractLsb'_toNat, Nat.shiftRight_eq_div_pow]; rfl

section
variable (kind cluster bank group word : Nat) (wr engine : Bool)

/-- A record is the sum of its fields: none of them runs into the next (R25). -/
theorem stkerrWord_toNat (hk : kind < 8) (hc : cluster < 64) (hb : bank < 64) (hg : group < 18) (hw : word < 393216) :
    (stkerrWord kind cluster bank group word wr engine).toNat =
      2 ^ 63 + kind * 2 ^ 60 + cluster / 16 * 2 ^ 58 + bank / 16 * 2 ^ 56 + cluster % 16 * 2 ^ 52 +
        bank * 2 ^ 46 + group * 2 ^ 41 + b2n wr * 2 ^ 40 + b2n engine * 2 ^ 39 + word := by
  have hwr := b2n_lt_two wr
  have he := b2n_lt_two engine
  rw [stkerrWord, BitVec.toNat_ofNat, Nat.mod_eq_of_lt]
  omega

/-- The fields of a record (R25). -/
theorem stkerrWord_fields (hk : kind < 8) (hc : cluster < 64) (hb : bank < 64) (hg : group < 18) (hw : word < 393216) :
    let t := stkerrWord kind cluster bank group word wr engine
    t.getLsbD 63 = true ∧ (t.extractLsb' 60 3).toNat = kind ∧ (t.extractLsb' 58 2).toNat = cluster / 16 ∧
      (t.extractLsb' 56 2).toNat = bank / 16 ∧ (t.extractLsb' 52 4).toNat = cluster % 16 ∧
      (t.extractLsb' 46 6).toNat = bank ∧ (t.extractLsb' 41 5).toNat = group ∧ t.getLsbD 40 = wr ∧
      t.getLsbD 39 = engine ∧ t.extractLsb' 19 20 = 0 ∧ (t.extractLsb' 0 19).toNat = word := by
  have hwr := b2n_lt_two wr
  have he := b2n_lt_two engine
  have sum := stkerrWord_toNat kind cluster bank group word wr engine hk hc hb hg hw
  generalize stkerrWord kind cluster bank group word wr engine = t at sum ⊢
  have flag (i : Nat) (b : Bool) (h : t.toNat / 2 ^ i % 2 = b2n b) : t.getLsbD i = b := by
    rw [getLsbD_eq_decide_digit, h, decide_b2n]
  have field (lo len v : Nat) (h : t.toNat / 2 ^ lo % 2 ^ len = v) : (t.extractLsb' lo len).toNat = v := by
    rw [BitVec.extractLsb'_toNat, Nat.shiftRight_eq_div_pow, h]
  have tower : cluster / 16 < 4 := by omega
  have layer : bank / 16 < 4 := by omega
  have inTower : cluster % 16 < 16 := by omega
  clear hc
  generalize cluster / 16 = c at *
  generalize cluster % 16 = d at *
  generalize bank / 16 = l at *
  exact ⟨flag 63 true (by rw [b2n, if_pos rfl]; omega), field 60 3 _ (by omega), field 58 2 _ (by omega),
    field 56 2 _ (by omega), field 52 4 _ (by omega), field 46 6 _ (by omega), field 41 5 _ (by omega),
    flag 40 wr (by omega), flag 39 engine (by omega), BitVec.eq_of_toNat_eq (field 19 20 0 (by omega)),
    field 0 19 _ (by omega)⟩

end

/-- Settles O56: a record replaces the latched one as `State.stackError_stkerr` says, and its fields are those of
`stkerrWord_fields`. -/
theorem stackErrors : Obligations.StackErrors := by
  refine ⟨rfl, ?_, fun s x => ?_, fun s => ⟨_, rfl, rfl⟩⟩
  · intro kind cluster bank group word wr engine s hk hc hb hg hw
    dsimp only
    rw [State.stackError_stkerr, bits_kind]
    have replaces : ¬ (s.stkerr.getLsbD 63 = true ∧ kind ≤ (s.stkerr.extractLsb' 60 3).toNat) ↔
        s.stkerr.getLsbD 63 = false ∨ (s.stkerr.extractLsb' 60 3).toNat < kind := by
      rw [Decidable.not_and_iff_or_not, Bool.not_eq_true, Nat.not_le]
    split
    · next kept => rw [if_neg fun h => replaces.2 h kept]
    · next lower =>
      rw [if_pos (replaces.1 lower)]
      exact stkerrWord_fields kind cluster bank group word wr engine hk hc hb hg hw
  · simp only [State.sysw]
    split <;> rfl

end Sys2Proof.Machine

/-! PROOFS. The bytes of a canonical memory, and those of a merged line. -/

namespace Sys2Proof.Machine

/-- A load is a sum over the listed cells of its range. -/
theorem loadBytes_eq_sum (m : List Host.Cell) (a n : Nat) :
    loadBytes m a n = ((m.filter fun c => a ≤ c.1 && c.1 < a + n).map fun c => c.2.toNat * 256 ^ (c.1 - a)).sum := by
  rw [loadBytes, List.sum_eq_foldl, List.foldl_map]
/-- One listed cell more. -/
theorem loadBytes_cons (x : Host.Cell) (m : List Host.Cell) (a n : Nat) :
    loadBytes (x :: m) a n =
      (if a ≤ x.1 ∧ x.1 < a + n then x.2.toNat * 256 ^ (x.1 - a) else 0) + loadBytes m a n := by
  simp only [loadBytes_eq_sum, List.filter_cons, Bool.and_eq_true, decide_eq_true_eq]
  split <;> simp
/-- Little-endian order (R3): the byte at the address, then the rest. -/
theorem loadBytes_succ (m : List Host.Cell) (hm : m.Pairwise fun c d => c.1 < d.1) (a n : Nat) :
    loadBytes m a (n + 1) = (readByte m a).toNat + 256 * loadBytes m (a + 1) n := by
  induction m with
  | nil => rfl
  | cons x m ih =>
    obtain ⟨above, rest⟩ := List.pairwise_cons.1 hm
    rw [loadBytes_cons, loadBytes_cons, ih rest, Nat.mul_add]
    by_cases here : x.1 = a
    · have absent : readByte m a = 0 := by
        rw [readByte, lookup_none_of_forall m a fun c hc => by have := above c hc; omega]; rfl
      have found : readByte (x :: m) a = x.2 := by
        rw [readByte, ← here, List.lookup_cons, beq_self_eq_true]; rfl
      rw [absent, found, if_pos (by omega), if_neg (by omega), here]
      simp
    · have passed : readByte (x :: m) a = readByte m a := by
        rw [readByte, List.lookup_cons, beq_false_of_ne (Ne.symm here)]; rfl
      rw [passed]
      by_cases inside : a + 1 ≤ x.1 ∧ x.1 < a + 1 + n
      · rw [if_pos (by omega), if_pos inside, show x.1 - a = (x.1 - (a + 1)) + 1 by omega, Nat.pow_succ',
          Nat.mul_left_comm, Nat.add_left_comm]
      · rw [if_neg (by omega), if_neg inside]
        omega
/-- A byte of a load is the byte at its address. -/
theorem ofNat_loadBytes_div (m : List Host.Cell) (hm : Memory.wf m = true) (n : Nat) :
    ∀ a i, i < n → BitVec.ofNat 8 (loadBytes m a n / 256 ^ i) = readByte m (a + i) := by
  have sorted := ((Memory.wf_iff m).1 hm).1
  induction n with
  | zero => intro a i hi; omega
  | succ n ih =>
    intro a i hi
    rw [loadBytes_succ m sorted]
    cases i with
    | zero =>
      apply BitVec.eq_of_toNat_eq
      simpa using (readByte m a).isLt
    | succ i =>
      have low := (readByte m a).isLt
      rw [Nat.pow_succ', ← Nat.div_div_eq_div_mul,
        show ((readByte m a).toNat + 256 * loadBytes m (a + 1) n) / 256 = loadBytes m (a + 1) n by omega,
        ih (a + 1) i (by omega), Nat.add_right_comm]
      rfl

/-- Digits put together to base 256 come apart again. -/
theorem foldr_range_digit (n : Nat) : ∀ (f : Nat → Nat), (∀ i, f i < 256) → ∀ i < n,
    (List.range n).foldr (fun i acc => f i + 256 * acc) 0 / 256 ^ i % 256 = f i := by
  induction n with
  | zero => intro f _ i hi; omega
  | succ n ih =>
    intro f hf i hi
    rw [List.range_succ_eq_map, List.foldr_cons, List.foldr_map]
    have h0 := hf 0
    cases i with
    | zero => rw [Nat.pow_zero, Nat.div_one, Nat.add_mul_mod_self_left, Nat.mod_eq_of_lt h0]
    | succ i =>
      rw [Nat.pow_succ', ← Nat.div_div_eq_div_mul, Nat.add_mul_div_left _ _ (by decide), Nat.div_eq_of_lt h0, Nat.zero_add]
      exact ih (fun j => f (j + 1)) (fun j => hf (j + 1)) i (by omega)
/-- A byte of a number, as bits of its word. -/
theorem ofNat_div_eq_extractLsb' {w : Nat} (x : BitVec w) (i : Nat) :
    BitVec.ofNat 8 (x.toNat / 256 ^ i) = x.extractLsb' (8 * i) 8 := by
  apply BitVec.eq_of_toNat_eq
  rw [BitVec.toNat_ofNat, BitVec.extractLsb'_toNat, Nat.shiftRight_eq_div_pow, Nat.pow_mul]
/-- Bits of a number that its word still holds. -/
theorem extractLsb'_ofNat_of_le (w x lo len : Nat) (h : lo + len ≤ w) :
    (BitVec.ofNat w x).extractLsb' lo len = BitVec.ofNat len (x / 2 ^ lo) := by
  ext i hi
  have inside : lo + i < w := by omega
  simp [BitVec.getElem_eq_testBit_toNat, Nat.testBit_mod_two_pow, Nat.testBit_div_two_pow, inside, hi, Nat.add_comm]
/-- Where all bits of a byte are selected a merge takes the new ones, where none is the old ones. -/
theorem mergeBits_extractLsb' {w : Nat} (sel old new : BitVec w) (lo len : Nat) (hw : lo + len ≤ w) (c : Bool)
    (h : sel.extractLsb' lo len = if c then BitVec.allOnes len else 0) :
    (mergeBits sel old new).extractLsb' lo len = if c then new.extractLsb' lo len else old.extractLsb' lo len := by
  ext i hi
  have inside : lo + i < w := by omega
  have picked : sel[lo + i] = c := by
    have bit := congrArg (·.getLsbD i) h
    cases c <;> simpa [hi, inside] using bit
  cases c <;> simp [mergeBits, picked, inside]

/-- The bits that the byte mask of a line selects. -/
def maskBits (mask : Nat) : BitVec 512 :=
  BitVec.ofNat 512 ((List.range 64).foldr (fun i acc => (if mask / 2 ^ i % 2 = 1 then 255 else 0) + 256 * acc) 0)
/-- They are whole bytes. -/
theorem maskBits_extractLsb' (mask i : Nat) (hi : i < 64) :
    (maskBits mask).extractLsb' (8 * i) 8 = if decide (mask / 2 ^ i % 2 = 1) then BitVec.allOnes 8 else 0 := by
  have digit := foldr_range_digit 64 (fun i => if mask / 2 ^ i % 2 = 1 then 255 else 0) (fun _ => by split <;> decide) i hi
  apply BitVec.eq_of_toNat_eq
  rw [maskBits, extractLsb'_ofNat_of_le _ _ _ _ (by omega), BitVec.toNat_ofNat, Nat.pow_mul]
  refine digit.trans ?_
  by_cases h : mask / 2 ^ i % 2 = 1 <;> simp [h]

end Sys2Proof.Machine

/-! PROOFS. What the shared operations of the memory events leave unchanged: a write at a home, a wake, a pass over the
places. -/

namespace Sys2Proof.Machine

/-! Writes at a home (R175). -/

/-- L1s give up copies: these go, and lines of the slices may turn dirty (R156). -/
theorem State.l1Give_only (s : State) (p : L1Copy → Bool) : ∃ x y, s.l1Give p = { s with l1 := x, l2 := y } := by
  have mark (l : List L1Copy) : ∀ t : State, ∃ y,
      l.foldl (fun (t : State) k => t.l2Mark k.line true) t = { t with l2 := y } := by
    induction l with
    | nil => exact fun t => ⟨_, rfl⟩
    | cons a l ih => exact fun t => ih (t.l2Mark a.line true)
  obtain ⟨y, h⟩ := mark (s.l1.filter fun k => p k && k.dirty) { s with l1 := s.l1.filter fun k => !p k }
  exact ⟨_, y, h⟩
theorem State.recall_only (s : State) (line : Nat) : ∃ x y, s.recall line = { s with l1 := x, l2 := y } :=
  s.l1Give_only _
@[simp] theorem State.recall_me (s : State) (line : Nat) : (s.recall line).me = s.me := by
  obtain ⟨_, _, h⟩ := s.recall_only line; rw [h]

/-- A write at a home leaves the acting context, its place and the page requests alone. -/
theorem State.homeWrite_keeps (s : State) (pts : Word) (pa n v : Nat) (e : Option Bool) (m : BitVec 64) :
    (s.homeWrite pts pa n v e m).1.me = s.me ∧ (s.homeWrite pts pa n v e m).1.cur = s.cur ∧
      (s.homeWrite pts pa n v e m).1.requests = s.requests := by
  simp only [State.homeWrite]
  cases cacheable pa with
  | true =>
    simp only [if_true]
    obtain ⟨_, _, h⟩ := State.recall_only _ (pa / 64)
    rw [h]
    exact ⟨rfl, rfl, rfl⟩
  | false =>
    simp only [Bool.false_eq_true, if_false]
    obtain ⟨_, _, _, _, _, _, _, _, hs⟩ := State.sramWrite_only (State.recall _ (pa / 64)) pa n true m
    obtain ⟨_, _, hr⟩ := State.recall_only (State.setLine (s.engineWrite pa n v e m) pa _) (pa / 64)
    obtain ⟨_, _, he⟩ := s.engineWrite_eq pa n v e m
    rw [hs, hr, he]
    exact ⟨rfl, rfl, rfl⟩
@[simp] theorem State.homeWrite_me (s : State) (pts : Word) (pa n v : Nat) (e : Option Bool) (m : BitVec 64) :
    (s.homeWrite pts pa n v e m).1.me = s.me := (s.homeWrite_keeps pts pa n v e m).1
@[simp] theorem State.homeWrite_cur (s : State) (pts : Word) (pa n v : Nat) (e : Option Bool) (m : BitVec 64) :
    (s.homeWrite pts pa n v e m).1.cur = s.cur := (s.homeWrite_keeps pts pa n v e m).2.1
@[simp] theorem State.homeWrite_requests (s : State) (pts : Word) (pa n v : Nat) (e : Option Bool) (m : BitVec 64) :
    (s.homeWrite pts pa n v e m).1.requests = s.requests := (s.homeWrite_keeps pts pa n v e m).2.2

/-! Passes over the places. -/

/-- To set a context changes the acting one or the others, and nothing else. -/
theorem State.setCtx_only (s : State) (l : Nat) (c : Ctx) : ∃ m o, s.setCtx l c = { s with me := m, others := o } := by
  simp only [State.setCtx]
  split
  · exact ⟨c, s.others, rfl⟩
  · exact ⟨s.me, _, rfl⟩
theorem State.setCtx_me_other (s : State) (l : Nat) (c : Ctx) (h : l ≠ s.cur) : (s.setCtx l c).me = s.me := by
  rw [State.setCtx, if_neg h]

/-- A step that changes contexts alone. -/
def contextsOnly (s t : State) : Prop := ∃ m o, t = { s with me := m, others := o }
theorem contextsOnly.cur {s t : State} (h : contextsOnly s t) : t.cur = s.cur := by
  obtain ⟨_, _, rfl⟩ := h; rfl
theorem foldl_contextsOnly (f : State → Nat → State) (hf : ∀ s l, contextsOnly s (f s l)) (l : List Nat) :
    ∀ s : State, contextsOnly s (l.foldl f s) := by
  induction l with
  | nil => exact fun s => ⟨s.me, s.others, rfl⟩
  | cons a l ih =>
    intro s
    obtain ⟨_, _, h⟩ := hf s a
    obtain ⟨m, o, h'⟩ := ih (f s a)
    exact ⟨m, o, h'.trans (by rw [h])⟩
/-- A fold over places other than the acting one leaves the acting context alone. -/
theorem foldl_others_me (f : State → Nat → State) (hf : ∀ s l, contextsOnly s (f s l))
    (hother : ∀ s l, l ≠ s.cur → (f s l).me = s.me) (l : List Nat) :
    ∀ s : State, (∀ k ∈ l, k ≠ s.cur) → (l.foldl f s).me = s.me := by
  induction l with
  | nil => exact fun _ _ => rfl
  | cons a l ih =>
    intro s h
    have away : ∀ k ∈ l, k ≠ (f s a).cur := fun k hk => (hf s a).cur ▸ h k (List.mem_cons_of_mem _ hk)
    exact (ih (f s a) away).trans (hother s a (h a List.mem_cons_self))
/-- The acting place stands once among the places: what a pass over them makes of the acting context is what its step
there makes of it. -/
theorem foldl_places_me (f : State → Nat → State) (s u : State) (c : Ctx) (hf : ∀ t l, contextsOnly t (f t l))
    (hother : ∀ t l, l ≠ t.cur → (f t l).me = t.me) (hu : u.cur = s.cur)
    (hat : ∀ t, t.cur = s.cur → t.me = u.me → (f t s.cur).me = c) : (s.places.foldl f u).me = c := by
  rw [State.places, List.foldl_append, List.foldl_append, List.foldl_cons, List.foldl_nil]
  generalize hv : ((s.others.filter fun e => e.1 < s.cur).map (·.1)).foldl f u = v
  have place : v.cur = s.cur := hv ▸ (foldl_contextsOnly f hf _ u).cur.trans hu
  have before : v.me = u.me := by
    rw [← hv]
    refine foldl_others_me f hf hother _ u fun k hk => ?_
    obtain ⟨e, he, rfl⟩ := List.mem_map.1 hk
    rw [hu]
    exact Nat.ne_of_lt (of_decide_eq_true (List.mem_filter.1 he).2)
  refine (foldl_others_me f hf hother _ _ fun k hk => ?_).trans (hat v place before)
  obtain ⟨e, he, rfl⟩ := List.mem_map.1 hk
  rw [(hf v s.cur).cur, place]
  exact Nat.ne_of_gt (of_decide_eq_true (List.mem_filter.1 he).2)

/-- What a wake does at one place. -/
def State.wakeAt (p : Nat → Ctx → Option WaitEnd) (s : State) (loc : Nat) : State :=
  match (s.ctx loc).woken, p loc (s.ctx loc) with
  | none, some r => s.setCtx loc { s.ctx loc with woken := some r }
  | _, _ => s
theorem State.wake_eq (s : State) (p : Nat → Ctx → Option WaitEnd) : s.wake p = s.places.foldl (State.wakeAt p) s := rfl
theorem State.wakeAt_only (p : Nat → Ctx → Option WaitEnd) (s : State) (l : Nat) : contextsOnly s (s.wakeAt p l) := by
  simp only [State.wakeAt]
  split
  · exact s.setCtx_only l _
  · exact ⟨s.me, s.others, rfl⟩
theorem State.wakeAt_me_other (p : Nat → Ctx → Option WaitEnd) (s : State) (l : Nat) (h : l ≠ s.cur) :
    (s.wakeAt p l).me = s.me := by
  simp only [State.wakeAt]
  split
  · exact s.setCtx_me_other l _ h
  · rfl
/-- A wake leaves the page requests alone. -/
@[simp] theorem State.wake_requests (s : State) (p : Nat → Ctx → Option WaitEnd) : (s.wake p).requests = s.requests := by
  obtain ⟨_, _, h⟩ := foldl_contextsOnly _ (State.wakeAt_only p) s.places s
  rw [State.wake_eq, h]
/-- A wake that selects the acting context ends its wait, where nothing has ended it before (R381). -/
theorem State.wake_me (s : State) (p : Nat → Ctx → Option WaitEnd) (r : WaitEnd) (waits : s.me.woken = none)
    (selected : p s.cur s.me = some r) : (s.wake p).me = { s.me with woken := some r } := by
  rw [State.wake_eq]
  refine foldl_places_me _ s s _ (State.wakeAt_only p) (State.wakeAt_me_other p) rfl fun t hc hm => ?_
  have here : t.ctx s.cur = s.me := by rw [← hc, State.ctx_cur, hm]
  simp only [State.wakeAt, here, waits, selected]
  rw [← hc, State.setCtx_cur]

end Sys2Proof.Machine

/-! PROOFS. The memory events: scrubbing (R23), page outcomes (R167), page release (R170) and host accesses (R185, R252). -/

namespace Sys2Proof.Machine

/-! Cell errors (R21, R23 to R25). -/

/-- The fault that a write-back ends: one bit of a word. -/
theorem CellFault.isSingle_iff (f : CellFault) : (f.isCell && !f.isDouble) = true ↔ ∃ w, f = .cellSingle w := by
  cases f <;> simp [CellFault.isCell, CellFault.isDouble]
/-- A write-back that is due corrects the line (R23). -/
theorem execCellErrorWriteBack_due (line : Nat) (s : State) (due : s.corrections.contains line = true) :
    ∃ t, execCellErrorWriteBack line s = .next t ∧ t = { s with corrections := t.corrections, faults := t.faults } ∧
      (∀ f, f ∈ t.faults ↔ f ∈ s.faults ∧ ¬ (f.1 = line ∧ ∃ w, f.2 = .cellSingle w)) ∧
      t.corrections.contains line = false := by
  refine ⟨_, by rw [execCellErrorWriteBack, if_pos due], rfl, fun f => ?_, by simp⟩
  rw [List.mem_filter, ← CellFault.isSingle_iff]
  cases single : f.2.isCell && !f.2.isDouble <;> simp [Bool.and_assoc, single]
/-- Where the line has been written since, nothing is left to do. -/
theorem execCellErrorWriteBack_gone (line : Nat) (s : State) (gone : s.corrections.contains line = false) :
    execCellErrorWriteBack line s = .next s := by
  rw [execCellErrorWriteBack, gone]; rfl

/-- A fault of a word is none of a transfer. -/
theorem CellFault.not_bus (f : CellFault) (h : f.isCell = true) : f.failed = none ∧ f.retried = none := by
  cases f with
  | cellSingle _ | cellDouble _ => exact ⟨rfl, rfl⟩
  | busRetry _ | busFail _ => cases h
/-- A read of a line whose bank is not retired and whose transfer does not fail classifies each bad word (R21). -/
theorem State.sramRead_cells (s : State) (line : Nat) (e : Bool) (kept : s.inRetired (64 * line) = false)
    (passes : ∀ f ∈ s.faultsAt line, f.isCell = true) :
    (s.sramRead (64 * line) e).1 = (s.faultsAt line).foldl (fun t f =>
      t.badWord line (clusterOfPa (64 * line)) (bankOfPa (64 * line)) (64 * line % 2 ^ 22 / 64 * 8) e f) s := by
  have same : 64 * line / 64 = line := Nat.mul_div_cancel_left line (by decide)
  have notFailed : (s.faultsAt line).findSome? CellFault.failed = none :=
    List.findSome?_eq_none_iff.2 fun f hf => (f.not_bus (passes f hf)).1
  have notRetried : (s.faultsAt line).findSome? CellFault.retried = none :=
    List.findSome?_eq_none_iff.2 fun f hf => (f.not_bus (passes f hf)).2
  rw [State.sramRead, show bankGone s.retired (64 * line) = false from kept]
  simp only [State.sramLine, same, notFailed, notRetried, List.filter_eq_self.2 passes, Bool.false_eq_true, if_false]
/-- The scrubber reads a line of a bank (R23). -/
theorem State.scrub_bank (s : State) (line : Nat) (lo : 0x1000000000000 ≤ 64 * line) (hi : 64 * line < 0x1000400000000)
    (off : 64 * line % 0x400000 < 0x300000) : s.scrub line = (s.sramRead (64 * line) true).1 := by
  have bank : inBank (64 * line) = true := by simp [inBank, lo, hi]
  have size : bankSize = 0x300000 := rfl
  rw [State.scrub, bank, size, decide_eq_true off]; rfl
/-- The record of a word of one bad bit. -/
theorem State.badWord_single_stkerr (s : State) (line c b first w : Nat) (e : Bool) :
    (s.badWord line c b first e (.cellSingle w)).stkerr = (s.stackError 2 c b 0 (first + w) false e).stkerr := rfl
/-- A line without a fault stays as it is. -/
theorem State.scrub_clean (s : State) (line : Nat) (lo : 0x1000000000000 ≤ 64 * line) (hi : 64 * line < 0x1000400000000)
    (off : 64 * line % 0x400000 < 0x300000) (kept : s.inRetired (64 * line) = false) (clean : s.faultsAt line = []) :
    s.scrub line = s := by
  rw [s.scrub_bank line lo hi off, s.sramRead_cells line true kept (by simp [clean]), clean, List.foldl_nil]
/-- A word of one bad bit waits for its write-back, and its record is latched where it is the more severe (R23, R25). -/
theorem State.scrub_single (s : State) (line w : Nat) (lo : 0x1000000000000 ≤ 64 * line) (hi : 64 * line < 0x1000400000000)
    (off : 64 * line % 0x400000 < 0x300000) (kept : s.inRetired (64 * line) = false)
    (single : s.faultsAt line = [.cellSingle w]) :
    (s.scrub line).mem = s.mem ∧ (s.scrub line).me = s.me ∧ (s.scrub line).corrections.contains line = true ∧
      (s.scrub line).stkerr = if s.stkerr.getLsbD 63 = false ∨ bits s.stkerr.toNat 62 60 < 2 then
        stkerrWord 2 (clusterOfPa (64 * line)) (bankOfPa (64 * line)) 0 (64 * line % 2 ^ 22 / 64 * 8 + w) false true
        else s.stkerr := by
  have passes : ∀ f ∈ s.faultsAt line, f.isCell = true := by simp [single, CellFault.isCell]
  rw [s.scrub_bank line lo hi off, s.sramRead_cells line true kept passes, single, List.foldl_cons, List.foldl_nil]
  obtain ⟨_, _, _, _, _, _, _, _, h⟩ := State.badWord_only s line (clusterOfPa (64 * line)) (bankOfPa (64 * line))
    (64 * line % 2 ^ 22 / 64 * 8) true (.cellSingle w)
  refine ⟨by rw [h], by rw [h], ?_, ?_⟩
  · simp only [State.badWord]
    split
    · assumption
    · simp
  · rw [State.badWord_single_stkerr, State.stackError_stkerr]

/-! Page outcomes (R167). -/

/-- The request `r` has been answered, and system software has made its page present where it says so. -/
def State.answered (s : State) (r : PageRequest) (resident : Bool) (entryAt : Nat) (entry : Word) : State :=
  let t := { s with requests := s.requests.filter fun (q : PageRequest) => q.id ≠ r.id }
  if resident && !s.noPa entryAt then (t.homeWrite 0 entryAt 8 entry.toNat none).1 else t
/-- The answer to a request of a context ends its wait. -/
theorem execPageRequestOutcome_eq (n : Nat) (resident : Bool) (entryAt : Nat) (entry : Word) (s : State) (r : PageRequest)
    (l : Nat) (asked : s.requests[n]? = some r) (own : r.job = none) (place : r.loc = some l) :
    execPageRequestOutcome n resident entryAt entry s = .next ((s.answered r resident entryAt entry).wake fun m c =>
      if m = l && c.status = .waiting (.page r.va) then some (if resident then .completes else .refused) else none) := by
  simp only [execPageRequestOutcome, asked, own, place, Option.bind_none]
  rfl

section
variable (s : State) (r : PageRequest) (resident : Bool) (entryAt : Nat) (entry : Word)

@[simp] theorem State.answered_me : (s.answered r resident entryAt entry).me = s.me := by
  simp only [State.answered]; split <;> simp
@[simp] theorem State.answered_cur : (s.answered r resident entryAt entry).cur = s.cur := by
  simp only [State.answered]; split <;> simp
@[simp] theorem State.answered_requests :
    (s.answered r resident entryAt entry).requests = s.requests.filter fun (q : PageRequest) => q.id ≠ r.id := by
  simp only [State.answered]; split <;> simp
/-- A page that is not made present, or whose entry no access reaches, leaves memory alone. -/
theorem State.answered_mem_same (h : resident = false ∨ s.noPa entryAt = true) :
    (s.answered r resident entryAt entry).mem = s.mem := by
  have kept : (resident && !s.noPa entryAt) = false := by rcases h with h | h <;> simp [h]
  simp only [State.answered, kept, Bool.false_eq_true, if_false]
/-- A page that is made present gets its entry. -/
theorem State.answered_mem_entry (h : resident = true) (reached : s.noPa entryAt = false) :
    (s.answered r resident entryAt entry).mem = storeBytes s.mem entryAt 8 entry.toNat := by
  simp [State.answered, h, reached]

end

/-- A page outcome for the acting context, which waits for it (R167). -/
theorem execPageRequestOutcome_own (n : Nat) (resident : Bool) (entryAt : Nat) (entry : Word) (s : State) (r : PageRequest)
    (asked : s.requests[n]? = some r) (own : r.job = none) (place : r.loc = some s.cur)
    (status : s.me.status = .waiting (.page r.va)) (waits : s.me.woken = none) :
    ∃ t, execPageRequestOutcome n resident entryAt entry s = .next t ∧ (∀ q ∈ t.requests, q.id ≠ r.id) ∧
      t.me.woken = some (if resident then .completes else .refused) ∧ t.me.regs = s.me.regs ∧
      (resident = false ∨ s.noPa entryAt = true → t.mem = s.mem) ∧
      (resident = true → s.noPa entryAt = false →
        loadBytes t.mem entryAt 8 = entry.toNat ∧ memFrame s t entryAt 8) := by
  have woken := State.wake_me (s.answered r resident entryAt entry) (fun m c =>
      if m = s.cur && c.status = .waiting (.page r.va) then some (if resident then .completes else .refused) else none)
    (if resident then .completes else .refused) (by simpa using waits) (by simp [status])
  refine ⟨_, execPageRequestOutcome_eq n resident entryAt entry s r s.cur asked own place, fun q hq => ?_,
    by rw [woken], by rw [woken, State.answered_me], ?_, ?_⟩
  · rw [State.wake_requests, State.answered_requests, List.mem_filter] at hq
    exact of_decide_eq_true hq.2
  · intro h
    rw [State.wake_mem, State.answered_mem_same s r resident entryAt entry h]
  · intro present reached
    rw [memFrame, State.wake_mem, State.answered_mem_entry s r resident entryAt entry present reached,
      loadBytes_storeBytes_same]
    exact ⟨Nat.mod_eq_of_lt entry.isLt, fun b hb => readByte_storeBytes_outside _ _ _ _ _ hb⟩

/-! Page release (R170). -/

/-- The regions with a page in a physical range are stale. -/
def State.staleRegions (s : State) (base size : Nat) (root : Word) (l : List MapRegion) : List MapRegion :=
  l.map fun r => if s.regionMeets root base size r then { r with stale := true } else r
/-- A line without a byte in a physical range. -/
def lineAway (base size line : Nat) : Bool := !decide (base < 64 * line + 64 ∧ 64 * line < base + size)
theorem lineAway_iff (base size line : Nat) :
    lineAway base size line = true ↔ ¬ (base < 64 * line + 64 ∧ 64 * line < base + size) := by
  rw [lineAway, Bool.not_eq_true', decide_eq_false_iff_not]
/-- The caches, the host's too, and the Saved works after a page release. -/
def State.released (s : State) (base size : Nat) : State :=
  { s with
    l1 := s.l1.filter fun k => lineAway base size k.line
    l2 := s.l2.filter fun k => lineAway base size k.line
    icache := s.icache.filter fun k => lineAway base size k.2
    hostLines := s.hostLines.filter fun l => lineAway base size l
    saved := s.saved.map fun (v : Saved) => { v with regions := s.staleRegions base size v.root v.regions } }
/-- The regions of the context at one place, by what `s` translates. -/
def State.staleAt (s : State) (base size : Nat) (t : State) (l : Nat) : State :=
  if (t.ctx l).regions = [] then t
  else t.modCtx l fun c => { c with regions := s.staleRegions base size c.ptroot c.regions }
theorem execPageReleaseRequest_eq (base size : Nat) (s : State) :
    execPageReleaseRequest base size s = .next (s.places.foldl (s.staleAt base size) (s.released base size)) := rfl

section
variable (s : State) (base size : Nat)

theorem State.staleAt_only (t : State) (l : Nat) : contextsOnly t (s.staleAt base size t l) := by
  rw [State.staleAt]
  split
  · exact ⟨t.me, t.others, rfl⟩
  · exact t.setCtx_only l _
theorem State.staleAt_me_other (t : State) (l : Nat) (h : l ≠ t.cur) : (s.staleAt base size t l).me = t.me := by
  rw [State.staleAt]
  split
  · rfl
  · exact t.setCtx_me_other l _ h
theorem State.staleAt_me (t : State) :
    (s.staleAt base size t t.cur).me = { t.me with regions := s.staleRegions base size t.me.ptroot t.me.regions } := by
  rw [State.staleAt, State.ctx_cur]
  split
  · next unmapped =>
    have unmarked : s.staleRegions base size t.me.ptroot t.me.regions = t.me.regions := by rw [unmapped]; rfl
    rw [unmarked]
  · rw [State.modCtx_cur, State.modMe_me]

end

/-- A page release drops what the caches hold of the range, and marks the regions that cover it. -/
theorem execPageReleaseRequest_drops (base size : Nat) (s : State) :
    ∃ t, execPageReleaseRequest base size s = .next t ∧ t.mem = s.mem ∧
      t.me = { s.me with regions := s.staleRegions base size s.me.ptroot s.me.regions } ∧
      (∀ k, k ∈ t.l1 ↔ k ∈ s.l1 ∧ ¬ (base < 64 * k.line + 64 ∧ 64 * k.line < base + size)) ∧
      (∀ k, k ∈ t.l2 ↔ k ∈ s.l2 ∧ ¬ (base < 64 * k.line + 64 ∧ 64 * k.line < base + size)) := by
  have acting : (s.places.foldl (s.staleAt base size) (s.released base size)).me =
      { s.me with regions := s.staleRegions base size s.me.ptroot s.me.regions } := by
    refine foldl_places_me _ s _ _ (s.staleAt_only base size) (s.staleAt_me_other base size) rfl fun t hc hm => ?_
    rw [← hc, State.staleAt_me, hm]
    rfl
  obtain ⟨_, _, pass⟩ := foldl_contextsOnly _ (s.staleAt_only base size) s.places (s.released base size)
  rw [execPageReleaseRequest_eq]
  refine ⟨_, rfl, by rw [pass]; rfl, acting, fun k => ?_, fun k => ?_⟩ <;>
    rw [pass, ← lineAway_iff] <;> exact List.mem_filter

/-! Host accesses (R185, R252). -/

/-- A write of the host merges the masked bytes into the line. -/
theorem State.hostWrite_mem (s : State) (pa data mask : Nat) :
    (s.hostWrite pa data mask).mem = storeBytes s.mem pa 64
      (mergeBits (maskBits mask) (BitVec.ofNat 512 (loadBytes s.mem pa 64)) (BitVec.ofNat 512 data)).toNat := by
  simp only [State.hostWrite, State.homeWrite_mem]; rfl
@[simp] theorem State.hostWrite_me (s : State) (pa data mask : Nat) : (s.hostWrite pa data mask).me = s.me := by
  simp only [State.hostWrite, State.homeWrite_me]
/-- The bytes of the line after it: of the data where the mask selects them, else as before. -/
theorem State.hostWrite_byte (s : State) (hm : Memory.wf s.mem = true) (pa data mask i : Nat) (hi : i < 64) :
    readByte (s.hostWrite pa data mask).mem (pa + i) =
      if mask / 2 ^ i % 2 = 1 then BitVec.ofNat 8 (data / 256 ^ i) else readByte s.mem (pa + i) := by
  have byte (x : Nat) : (BitVec.ofNat 512 x).extractLsb' (8 * i) 8 = BitVec.ofNat 8 (x / 256 ^ i) := by
    rw [extractLsb'_ofNat_of_le _ _ _ _ (by omega), Nat.pow_mul]
  rw [State.hostWrite_mem, readByte_storeBytes, if_pos (by omega), Nat.add_sub_cancel_left, ofNat_div_eq_extractLsb',
    mergeBits_extractLsb' _ _ _ _ _ (by omega) _ (maskBits_extractLsb' mask i hi), byte, byte,
    ofNat_loadBytes_div s.mem hm 64 pa i hi]
  simp only [decide_eq_true_eq]
/-- A write of the host changes no other byte. -/
theorem State.hostWrite_frame (s : State) (pa data mask : Nat) : memFrame s (s.hostWrite pa data mask) pa 64 := fun b hb => by
  rw [State.hostWrite_mem, readByte_storeBytes_outside _ _ _ _ _ hb]

/-- HOST_SNOOP_WRITE writes a line of host memory (R185). -/
theorem execHostSnoopWrite_host (line data mask : Nat) (s : State) (lo : 0x8000000000000 ≤ 64 * line)
    (hi : 64 * line < 0x10000000000000) :
    execHostSnoopWrite line data mask s = .next (s.hostWrite (64 * line) data mask) := by
  rw [execHostSnoopWrite, if_pos ⟨lo, hi⟩]
/-- The host caches a line after its access, or does not (R252). -/
def State.hostHolds (s : State) (line : Nat) (keeps : Bool) : State :=
  { s with hostLines := (s.hostLines.filter fun l => l ≠ line) ++ if keeps then [line] else [] }
theorem State.mem_hostHolds (s : State) (line : Nat) (keeps : Bool) :
    line ∈ (s.hostHolds line keeps).hostLines ↔ keeps = true := by
  cases keeps <;> simp [State.hostHolds]
/-- The lines that CXL.mem reaches (R249). -/
theorem State.hdmLine_iff (s : State) (line : Nat) :
    s.hdmLine line = true ↔
      64 * line < 0x6000000000 ∧ s.mgmt.cxl = true ∧ s.mgmt.hdm.getLsbD (64 * line / 2 ^ 30) = true := by
  rw [State.hdmLine, inHbm, Bool.and_eq_true, Bool.and_eq_true, decide_eq_true_eq, and_comm (a := s.mgmt.cxl = true), and_assoc]
theorem execHostCxlMemWrite_write (line data mask : Nat) (keeps : Bool) (s : State) (h : s.hdmLine line = true) :
    execHostCxlMemWrite line (.write data mask) keeps s =
      .next ((s.hostWrite (64 * line) data mask).hostHolds line keeps) := by
  simp only [execHostCxlMemWrite, h, if_true]; rfl
theorem execHostCxlMemWrite_read (line : Nat) (keeps : Bool) (s : State) (h : s.hdmLine line = true) :
    execHostCxlMemWrite line .read keeps s = .next ((s.recall line).hostHolds line keeps) := by
  simp only [execHostCxlMemWrite, h, if_true]; rfl
theorem execHostCxlMemWrite_missed (line : Nat) (op : HostMemOp) (keeps : Bool) (s : State) (h : ¬ s.hdmLine line = true) :
    execHostCxlMemWrite line op keeps s = .next s := by
  simp only [execHostCxlMemWrite, if_neg h]

/-- Settles O52, event by event. -/
theorem memoryEvents : Obligations.MemoryEvents := by
  intro line n data mask base size entryAt entry resident keeps s
  refine ⟨execCellErrorWriteBack_due line s, execCellErrorWriteBack_gone line s, ?scrub,
    fun r => execPageRequestOutcome_own n resident entryAt entry s r, ?release, ?host, ?outside⟩
  case scrub =>
    exact fun lo hi off => ⟨fun clean kept => congrArg _ (s.scrub_clean line lo hi off kept clean),
      fun w single kept => ⟨_, rfl, s.scrub_single line w lo hi off kept single⟩⟩
  case release =>
    obtain ⟨t, ht, mem, me, l1, l2⟩ := execPageReleaseRequest_drops base size s
    refine ⟨t, ht, mem, by rw [me], l1, l2, fun r hr meets => ?_⟩
    rw [me]
    exact List.mem_map.2 ⟨r, hr, if_pos meets⟩
  case host =>
    intro hm
    have written (t : State) (hmem : t.mem = (s.hostWrite (64 * line) data mask).mem) (hme : t.me = s.me) :
        t.me = s.me ∧ memFrame s t (64 * line) 64 ∧ ∀ i < 64, readByte t.mem (64 * line + i) =
          if mask / 2 ^ i % 2 = 1 then BitVec.ofNat 8 (data / 256 ^ i) else readByte s.mem (64 * line + i) := by
      rw [memFrame, hmem]
      exact ⟨hme, s.hostWrite_frame _ data mask, s.hostWrite_byte hm _ data mask⟩
    refine ⟨fun lo hi => ⟨_, execHostSnoopWrite_host line data mask s lo hi, written _ rfl (State.hostWrite_me ..)⟩,
      fun hbm cxl granule => ?_⟩
    have reached : s.hdmLine line = true := (s.hdmLine_iff line).2 ⟨hbm, cxl, granule⟩
    exact ⟨⟨_, execHostCxlMemWrite_write line data mask keeps s reached, written _ rfl (State.hostWrite_me ..)⟩,
      _, execHostCxlMemWrite_read line keeps s reached, State.recall_mem s line, State.recall_me s line,
      State.mem_hostHolds _ line keeps⟩
  case outside =>
    intro op out
    refine execHostCxlMemWrite_missed line op keeps s fun reached => ?_
    obtain ⟨hbm, cxl, granule⟩ := (s.hdmLine_iff line).1 reached
    rcases out with beyond | off | other
    · omega
    · simp [off] at cxl
    · exact absurd (granule.symm.trans other) (by decide)

end Sys2Proof.Machine

/-! PROOFS. The delay of EFR (R112): the countdown of a pending write, and how a bundle of one SYSW ends. -/

namespace Sys2Proof.Machine

/-! The countdown. -/

/-- A sole pending write with more than one bundle to go has one less to go. -/
theorem Ctx.tickEfr_waits (c : Ctx) (x : Word) (n : Nat) (h : c.efrPend = [{ val := x, wait := n + 2 }]) :
    c.tickEfr = { c with efrPend := [{ val := x, wait := n + 1 }] } := by
  simp [Ctx.tickEfr, h]
/-- A sole pending write with one bundle to go is then in effect. -/
theorem Ctx.tickEfr_due (c : Ctx) (x : Word) (h : c.efrPend = [{ val := x, wait := 1 }]) :
    c.tickEfr = { c with efr := x, efrPend := [] } := by
  simp [Ctx.tickEfr, h]
theorem Ctx.writeEfr_efr (c : Ctx) (x : Word) : (c.writeEfr x).efr = c.efr := rfl
theorem Ctx.writeEfr_efrPend (c : Ctx) (x : Word) :
    (c.writeEfr x).efrPend = c.efrPend.filter (fun e => e.wait != 2) ++ [{ val := x &&& 0xFF0F#64, wait := 2 }] := rfl
/-- A write while none is pending: the first bundle after the writing one ends with the old value, the second with the new
one, for the third to use. -/
theorem Ctx.tickEfr_twice_writeEfr (c : Ctx) (x : Word) (h : c.efrPend = []) :
    (c.writeEfr x).tickEfr.efr = c.efr ∧ (c.writeEfr x).tickEfr.tickEfr.efr = x &&& 0xFF0F#64 ∧
      (c.writeEfr x).tickEfr.tickEfr.efrPend = [] := by
  have first := (c.writeEfr x).tickEfr_waits (x &&& 0xFF0F#64) 0 (by rw [Ctx.writeEfr_efrPend, h]; rfl)
  have second := (c.writeEfr x).tickEfr.tickEfr_due (x &&& 0xFF0F#64) (by rw [first])
  rw [second, first]
  exact ⟨rfl, rfl, rfl⟩

/-! The end of a bundle. -/

/-- The next bundle after one that no transfer governs: the loop stack, the pc and the pre-emption point change, nothing
else of the context. -/
theorem Ctx.afterBundle_only (c : Ctx) (i : Issue) (next : Word) :
    ∃ l p b, c.afterBundle i next = { c with loops := l, pc := p, atPoint := b } := by
  simp only [Ctx.afterBundle]
  generalize (if c.breaks i = true then lbrkEnd c.pc next c.loops else endTest c.pc next c.loops) = r
  cases i.skip with
  | none => exact ⟨_, _, _, rfl⟩
  | some t => dsimp only; split <;> exact ⟨_, _, _, rfl⟩
/-- Outside a delay pair and without a transfer control goes on, and not through ERET. -/
theorem Ctx.advance_plain (c : Ctx) (i : Issue) (transfer : i.transfer = none) (delay : c.delay = none) :
    c.advance i = (c.afterBundle i (c.pc + BitVec.ofNat 64 (4 * i.len)), false) := by
  simp only [Ctx.advance, transfer, delay]
/-- A base-register rewrite (R238) is one result more in flight or none. -/
theorem Ctx.rewriteBase_only (c : Ctx) (cycle : Nat) (w : Option (SReg × Word)) :
    ∃ q, c.rewriteBase cycle w = { c with inflight := q } := by
  cases w with
  | none => exact ⟨_, rfl⟩
  | some w =>
    simp only [Ctx.rewriteBase]
    split <;> exact ⟨_, rfl⟩

/-- SYSW leaves the delay pair alone. -/
@[simp] theorem State.sysw_delay (s : State) (r : SysReg) (x : Word) : (s.sysw r x).me.delay = s.me.delay := by
  cases r
  case ceerr => simp only [State.sysw, State.modMe_me, Ctx.clearCeerr]; split <;> rfl
  case stkerr => simp only [State.sysw]; split <;> rfl
  all_goals rfl
@[simp] theorem State.applySysw_delay (s : State) : s.applySysw.me.delay = s.me.delay := by
  simp only [State.applySysw]
  generalize s.issue.sysw.filter _ ++ s.issue.sysw.filter _ = l
  induction l generalizing s with
  | nil => rfl
  | cons w l ih => rw [List.foldl_cons, ih, State.sysw_delay]

/-- `t` is `u` with its bundle over: beside the results in flight, where control stands and when the context may issue
again, nothing has changed. -/
def bundleOver (u t : State) : Prop :=
  t = { u with issue := Issue.none, me := { u.me with
    inflight := t.me.inflight, loops := t.me.loops, pc := t.me.pc, atPoint := t.me.atPoint, held := t.me.held
    woken := t.me.woken, fresh := t.me.fresh, unissued := t.me.unissued, nextAt := t.me.nextAt, lastAt := t.me.lastAt } }
/-- A bundle without a transfer, outside a delay pair: EFR counts down, its SYSW bind, and it is over. -/
theorem State.endBundle_plain (s : State) (transfer : s.issue.transfer = none) (delay : s.me.delay = none) :
    bundleOver (s.modMe Ctx.tickEfr).applySysw s.endBundle.1 ∧ s.endBundle.2 = false := by
  have bound : (s.modMe Ctx.tickEfr).applySysw.me.delay = none := (State.applySysw_delay _).trans delay
  simp only [State.endBundle]
  generalize (s.modMe Ctx.tickEfr).applySysw = u at bound
  obtain ⟨q, rewritten⟩ := u.me.rewriteBase_only u.cycle s.issue.rewrite
  rw [rewritten, Ctx.advance_plain { u.me with inflight := q } _ transfer bound]
  obtain ⟨_, _, _, after⟩ := Ctx.afterBundle_only { u.me with inflight := q } s.issue
    (u.me.pc + BitVec.ofNat 64 (4 * s.issue.len))
  rw [after]
  exact ⟨rfl, rfl⟩

/-- The syllables of a bundle have recorded nothing that keeps it from committing and control from going on: no trap before
or after its commit, no fault, wait, hold, HALT or transfer. -/
structure Issue.goesOn (i : Issue) : Prop where
  trap : i.trap = .none
  fatal : i.fatal = .none
  wait : i.wait = .none
  hold : i.hold = false
  soft : i.soft = .none
  halt : i.halt = false
  transfer : i.transfer = .none
/-- A bundle that puts no result in flight and records no trap does not trap. -/
theorem bundleTrap_none (s t : State) (trap : t.issue.trap = none) (me : t.me = s.me) : bundleTrap s t = none := by
  simp [bundleTrap, trap, me]
/-- It commits where nothing else stands against it. -/
theorem commit_goesOn (s t : State) (i : t.issue.goesOn) (me : t.me = s.me) : commit s t = finishBundle t := by
  have runs : t.issue.stops = none := by rw [Issue.stops, i.trap, i.fatal]
  simp only [commit, i.hold, runs, bundleTrap_none { s with issue := Issue.none } t i.trap me, i.wait, i.halt,
    Bool.false_eq_true, if_false]
theorem finishBundle_goesOn (s : State) (i : s.issue.goesOn) (delay : s.me.delay = none) :
    ∃ t, finishBundle s = .next t ∧ bundleOver (s.modMe Ctx.tickEfr).applySysw t := by
  obtain ⟨ended, stays⟩ := s.endBundle_plain i.transfer delay
  exact ⟨s.endBundle.1, by simp only [finishBundle, i.soft, stays, Bool.false_eq_true, if_false], ended⟩
theorem settle_alone (s t : State) (len : Nat) (alone : s.alone len) : settle s t = commit s t := by
  rw [settle, show s.issue = { Issue.none with len := len } from alone]; rfl

/-! A bundle of one SYSW. -/

theorem State.applySysw_single (s : State) (r : SysReg) (x : Word) (h : s.issue.sysw = [(r, x)]) :
    s.applySysw = s.sysw r x := by
  rw [State.applySysw, h]
  cases half : ownershipHalf r <;> simp [half]
/-- What the bookkeeping of its bundle holds when a SYSW alone has run. -/
def Issue.ofSysw (len : Nat) (r : SysReg) (x : Word) : Issue := { Issue.none with len := len, sysw := [(r, x)] }
theorem Issue.ofSysw_goesOn (len : Nat) (r : SysReg) (x : Word) : (Issue.ofSysw len r x).goesOn :=
  ⟨rfl, rfl, rfl, rfl, rfl, rfl, rfl⟩
/-- A SYSW alone in its bundle, outside a delay pair, of a register that its mode may write (R353): EFR has counted down,
the register is written, and the bundle is over. -/
theorem execSysw_alone (a : SReg) (r : SysReg) (len : Nat) (s : State) (alone : s.alone len) (delay : s.me.delay = none)
    (allowed : (sysPrivileged r && !s.me.priv) = false) :
    ∃ t, execSysw a r s = .next t ∧
      bundleOver ((State.modMe { s.occupy 0 1 with issue := Issue.ofSysw len r (s.rs a) } Ctx.tickEfr).sysw r (s.rs a)) t := by
  have issue : s.issue = { Issue.none with len := len } := alone
  have runs : execSysw a r s = finishBundle { s.occupy 0 1 with issue := Issue.ofSysw len r (s.rs a) } := by
    rw [execSysw, allowed, issue, settle_alone s _ len alone]
    exact commit_goesOn s _ (Issue.ofSysw_goesOn ..) rfl
  obtain ⟨t, ends, ended⟩ := finishBundle_goesOn { s.occupy 0 1 with issue := Issue.ofSysw len r (s.rs a) }
    (Issue.ofSysw_goesOn ..) delay
  rw [State.applySysw_single _ r (s.rs a) rfl] at ended
  exact ⟨t, runs.trans ends, ended⟩
theorem exec_sysw (a : SReg) (r : SysReg) (s : State) : exec (.sysw a r) s = execSysw a r s := rfl

/-- Settles O10: the write and its countdown, and a SYSW of EFR as `execSysw_alone` says. -/
theorem engineFormatDelay : Obligations.EngineFormatDelay := by
  refine ⟨fun c x => ⟨c.writeEfr_efr x, c.writeEfr_efrPend x⟩, Ctx.tickEfr_twice_writeEfr, fun a len s alone _ delay => ?_⟩
  obtain ⟨t, runs, ended⟩ := execSysw_alone a .efr len s alone delay rfl
  rw [exec_sysw]
  refine ⟨t, runs, ?_⟩
  rw [ended]
  exact ⟨rfl, rfl, rfl, rfl⟩

end Sys2Proof.Machine

/-! PROOFS. The routines and microprograms of the function array (R305, R306): a rejected image whose job belongs to a Saved
work with its save area in a bank. -/

namespace Sys2Proof.Machine

/-- The two reads of a FAMPW: the header and the state after the whole image, where neither read stops (R305). -/
def State.readImage (s : State) (j : Job) (image : Word) : Option (Nat × State) :=
  match s.jobRead j image 64 with
  | .inr _ => none
  | .inl (t, _, h, _) =>
    match t.jobRead j image (bits h 31 0) with
    | .inr _ => none
    | .inl (u, _, _, _) => some (h, u)
theorem State.readImage_eq_some {s u : State} {j : Job} {image : Word} {h : Nat} (reads : s.readImage j image = some (h, u)) :
    ∃ t p q p' v q', s.jobRead j image 64 = .inl (t, p, h, q) ∧ t.jobRead j image (bits h 31 0) = .inl (u, p', v, q') := by
  simp only [State.readImage] at reads
  split at reads
  · cases reads
  · next t p h' q header =>
    split at reads
    · cases reads
    · next u' p' v q' whole =>
      cases reads
      exact ⟨t, p, q, p', v, q', header, whole⟩

/-- The FAMPW of work 7 for the image at 1 GiB + 0x2000, in the address space of the table at 0. -/
def bankedFampw : Job :=
  { id := 1, kind := .fampw 0x40002000#64, loc := 0, work := 7, task := 0, root := 0, user := false, wid := 0, pts := 0
    seq := 0, domain := 0, foot := [], completion := .none, started := false, pos := 0, failed := false, paused := false
    request := none, refused := false, done := [], src := [], quiesce := none, ending := none, ended := none, stale := [] }
/-- Work 7 is Saved; its area begins at the first byte of the scratchpad (R150). -/
def bankedSave : Saved :=
  { work := 7, task := 0, area := 0x1000000000000, loc := 0, root := 0, banks := 0, since := 0, aged := 0, regions := []
    spawned := [], ecc := [], eccLater := [], m0 := [], m0Later := [], fastat := 0, gidx := 0, ganged := false
    fresh := false, reissue := { moved := false, loads := 0 } }
/-- Directory entry 0 of the table at 0 names the table itself, entry 1 is a leaf of 1 GiB at 0 (R161 to R163); the image has
4096 bytes and INDEX 16. The next transfer of the line of FAMPST in the area fails once (R21). -/
def bankedState : State :=
  { State.reset with
    mem := storeBytes (storeBytes [] 0 16 (2 ^ 63 + (2 ^ 63 + 2 ^ 62 + 2 ^ 57 + (2 ^ 17 - 1) * 2 ^ 12 + 2 ^ 11) * 2 ^ 64))
      0x2000 8 (4096 + 16 * 2 ^ 32)
    jobs := [bankedFampw], saved := [bankedSave]
    faults := [((bankedSave.area + 0x80A8) / 64, .busRetry 0)] }

/-- Its image can be read, and the reads log nothing. -/
theorem bankedState_readImage :
    ∃ u, bankedState.readImage bankedFampw 0x40002000#64 = some (4096 + 16 * 2 ^ 32, u) ∧ u.mgmt.logSeq = 0 := by
  have reads : (bankedState.readImage bankedFampw 0x40002000#64).any
      (fun r => r.1 == 4096 + 16 * 2 ^ 32 && r.2.mgmt.logSeq == 0) = true := by decide +kernel
  obtain ⟨⟨h, u⟩, read, fits⟩ := (Option.any_eq_true _ _).1 reads
  obtain ⟨header, unlogged⟩ := Bool.and_eq_true_iff.1 fits
  exact ⟨u, read.trans (by rw [← eq_of_beq header]), eq_of_beq unlogged⟩
/-- Its rejection logs two records: one of the image (R263), and one of the bank error that the write of FAMPST meets (R24). -/
theorem bankedState_logs_two :
    ∃ t, execMicroprogramVerify 1 false false bankedState = .next t ∧ t.mgmt.logSeq = 2 := by
  have logs : (match execMicroprogramVerify 1 false false bankedState with
    | .next t => decide (t.mgmt.logSeq = 2) | _ => false) = true := by decide +kernel
  split at logs
  · next t run => exact ⟨t, run, of_decide_eq_true logs⟩
  · cases logs
theorem exec_microprogramVerify (id : Nat) (sig sig' : Bool) (s : State) :
    exec (.microprogramVerify id sig sig') s = execMicroprogramVerify id sig sig' s := rfl

/-- Refutes O50: a rejected image is logged, but not always by one record more. Where the work of the FAMPW is Saved, FAMPST
is written to its save area (R306); in a bank that write can meet an error, which posts a second record (R24). -/
theorem not_arrayEvents : ¬ Obligations.ArrayEvents := by
  intro holds
  obtain ⟨u, read, before⟩ := bankedState_readImage
  obtain ⟨_, _, _, _, _, _, header, whole⟩ := State.readImage_eq_some read
  obtain ⟨t, run, after⟩ := bankedState_logs_two
  obtain ⟨_, _, _, verifies⟩ := holds 0 (bankedState.faSnapshot 0 0 .dynamic) bankedState
  obtain ⟨t', run', _, _, rejected⟩ := verifies 1 bankedFampw _ false false _ _ _ _ _ _ _ _ rfl rfl rfl rfl (by decide)
    header (by decide) (by decide) (by decide) (by decide) whole
  rw [exec_microprogramVerify, run] at run'
  cases run'
  obtain ⟨_, logged⟩ := rejected (.inl rfl)
  have once : t.mgmt.logSeq = u.mgmt.logSeq + 1 := logged rfl
  omega

end Sys2Proof.Machine

/-! PROOFS. A portion of another module (R184, R187): one whose walk retires the bank that it would write (R21, R26). -/

namespace Sys2Proof.Machine

/-- A portion of another module is not written where its page lies in a retired bank once its tables have been read (R26). -/
theorem State.foreignWrite_retired (s : State) (w : ForeignWrite) (data : Nat)
    (ok : (chase s w.root w.va .write w.user).x.st = .ok)
    (gone : (s.readLines (chase s w.root w.va .write w.user).tables).inRetired (chase s w.root w.va .write w.user).x.pa
      = true) :
    s.foreignWrite w data = s.readLines (chase s w.root w.va .write w.user).tables := by
  simp only [State.foreignWrite, ok, gone, if_true]
theorem exec_foreignWrite (w : ForeignWrite) (data : Delivered) (s : State) :
    exec (.copyLineWrite (.foreignWrite w) data) s = .next (s.foreignWrite w data.data) := rfl

/-- A copy command of this module; the portion belongs to none of its jobs. -/
def bystander : Job := { bankedFampw with kind := .copy 0 0 (Vector.replicate 8 0) }
/-- A page table at the first byte of the scratchpad (R150): directory entry 0 names the table itself, entry 1 is a leaf of
4 KiB that can be written, of the next page of the same bank (R161 to R163). Parity group 0 of the table's first line fails
in its next transfer and in the repeat (R21). -/
def tornState : State :=
  { State.reset with
    mem := storeBytes [] 0x1000000000000 16
      (2 ^ 63 + 0x1000000000000 + (2 ^ 63 + 2 ^ 62 + 2 ^ 57 + 2 ^ 56 + 0x1000000001000) * 2 ^ 64)
    jobs := [bystander], faults := [(0x1000000000000 / 64, .busFail 0)] }
/-- Eight bytes for the first byte of that page. -/
def tornWrite : ForeignWrite :=
  { root := 0x1000000000000#64, user := false, va := 0x1000#64, bytes := 8, poison := false, pts := 0, wid := 0
    readCount := 0 }
/-- Its walk, which reads the table alone. -/
def tornWalk : Chased := chase tornState tornWrite.root tornWrite.va .write tornWrite.user

theorem tornWalk_ok : tornWalk.x.st = .ok ∧ tornWalk.x.pa = 0x1000000001000 := by decide +kernel
/-- The walk finds a page whose bank stands, and its own reads then retire that bank (R21, R26). -/
theorem tornWalk_retires :
    tornState.inRetired tornWalk.x.pa = false ∧ (tornState.readLines tornWalk.tables).inRetired tornWalk.x.pa = true := by
  decide +kernel
theorem tornState_page_empty : loadBytes tornState.mem tornWalk.x.pa 8 = 0 := by decide +kernel
/-- The portion leaves the memory as it was. -/
theorem tornWrite_lost (data : Nat) : (tornState.foreignWrite tornWrite data).mem = tornState.mem := by
  rw [tornState.foreignWrite_retired tornWrite data tornWalk_ok.1 tornWalk_retires.2, State.readLines_mem]

/-- Refutes O46: a portion of another module is not always written where its page can be written. The state may hold a
latent fault of a table in a bank: the walk meets it and retires the bank (R21, R26), and a page of that bank takes no
more bytes. Here a 1 is lost, and the page still reads 0. -/
theorem not_copyEvents : ¬ Obligations.CopyEvents := by
  intro holds
  obtain ⟨-, -, -, -, -, -, foreign, -⟩ := holds 1 bystander 0 0 (Vector.replicate 8 0) tornState rfl rfl
  obtain ⟨t, run, -, -, written, -⟩ := foreign tornWrite ⟨1, false⟩ tornWalk_ok.1 tornWalk_retires.1
    (by decide +kernel) (by decide +kernel)
  rw [exec_foreignWrite] at run
  cases run
  have one : loadBytes tornState.mem tornWalk.x.pa 8 = 1 := by
    rw [← tornWrite_lost 1]
    exact written
  rw [tornState_page_empty] at one
  cases one

end Sys2Proof.Machine

/-! PROOFS. What the shared operations of the counter forms and of RSPROG leave unchanged: wakes, engine writes of a bank,
loads of a line. -/

namespace Sys2Proof.Machine

/-! The bundle in issue, the registers and the results in flight. -/

/-- The bundle in issue is as it was, and so are the registers of the acting context and its results in flight. -/
def leavesBundle (s t : State) : Prop :=
  t.issue = s.issue ∧ t.me.regs = s.me.regs ∧ t.me.inflight = s.me.inflight
theorem leavesBundle.refl (s : State) : leavesBundle s s := ⟨rfl, rfl, rfl⟩
theorem leavesBundle.trans {s t u : State} (h : leavesBundle s t) (h' : leavesBundle t u) : leavesBundle s u :=
  ⟨h'.1.trans h.1, h'.2.1.trans h.2.1, h'.2.2.trans h.2.2⟩
theorem foldl_leavesBundle {α : Type} (f : State → α → State) (hf : ∀ s a, leavesBundle s (f s a)) (l : List α) :
    ∀ s : State, leavesBundle s (l.foldl f s) := by
  induction l with
  | nil => exact leavesBundle.refl
  | cons a l ih => exact fun s => (hf s a).trans (ih _)
theorem stackOnly.leavesBundle {s t : State} (h : stackOnly s t) : leavesBundle s t := by
  obtain ⟨_, _, _, _, _, _, _, _, rfl⟩ := h
  exact ⟨rfl, rfl, rfl⟩

theorem State.wakeAt_leavesBundle (p : Nat → Ctx → Option WaitEnd) (s : State) (l : Nat) :
    leavesBundle s (s.wakeAt p l) := by
  by_cases h : l = s.cur
  · subst h
    simp only [State.wakeAt, State.ctx_cur, State.setCtx_cur]
    split <;> exact ⟨rfl, rfl, rfl⟩
  · obtain ⟨_, _, only⟩ := s.wakeAt_only p l
    have me := s.wakeAt_me_other p l h
    exact ⟨by rw [only], by rw [me], by rw [me]⟩
/-- A wake sets how waits have ended, and nothing of the bundle in issue. -/
theorem State.wake_leavesBundle (s : State) (p : Nat → Ctx → Option WaitEnd) : leavesBundle s (s.wake p) :=
  foldl_leavesBundle _ (State.wakeAt_leavesBundle p) s.places s
@[simp] theorem State.wake_jobs (s : State) (p : Nat → Ctx → Option WaitEnd) : (s.wake p).jobs = s.jobs := by
  obtain ⟨_, _, h⟩ := foldl_contextsOnly _ (State.wakeAt_only p) s.places s
  rw [State.wake_eq, h]
@[simp] theorem State.wake_precancels (s : State) (p : Nat → Ctx → Option WaitEnd) :
    (s.wake p).precancels = s.precancels := by
  obtain ⟨_, _, h⟩ := foldl_contextsOnly _ (State.wakeAt_only p) s.places s
  rw [State.wake_eq, h]

theorem State.keepLate_leavesBundle (s : State) (pa n line : Nat) (m : BitVec 64) (e : Option Bool) :
    leavesBundle s (s.keepLate pa n line m e) := ⟨rfl, rfl, rfl⟩
theorem State.writePoison_leavesBundle (s : State) (pa : Nat) (e : Bool) (p : Option Bool) :
    leavesBundle s (s.writePoison pa e p) := by
  simp only [State.writePoison]
  repeat' split
  all_goals exact ⟨rfl, rfl, rfl⟩
/-- A write of a bank through its engine port (R152) touches nothing of the bundle in issue. -/
theorem State.bankWrite_leavesBundle (s : State) (c b o n v : Nat) (p k : Bool) :
    leavesBundle s (s.bankWrite c b o n v p k true) := by
  simp only [State.bankWrite, if_true]
  obtain ⟨_, _, written⟩ := s.engineWrite_eq (scratchPa c b o) n v none (BitVec.allOnes 64)
  obtain ⟨_, _, _, marked⟩ := State.markDirty_only (List.foldl _ (s.engineWrite (scratchPa c b o) n v none) _) c b o n
  rw [marked]
  have start : leavesBundle s (s.engineWrite (scratchPa c b o) n v none) := by rw [written]; exact ⟨rfl, rfl, rfl⟩
  refine start.trans (foldl_leavesBundle _ (fun t i => ?_) _ _)
  exact ((State.keepLate_leavesBundle t _ _ _ _ _).trans (State.writePoison_leavesBundle _ _ _ _)).trans
    (State.sramWrite_only _ _ _ _ _).leavesBundle

/-! The acting context and the cycle. -/

/-- The acting context is as it was, and so is the cycle. -/
def leavesMe (s t : State) : Prop := t.me = s.me ∧ t.cycle = s.cycle
theorem leavesMe.trans {s t u : State} (h : leavesMe s t) (h' : leavesMe t u) : leavesMe s u :=
  ⟨h'.1.trans h.1, h'.2.trans h.2⟩
/-- A result of a state with the context and the cycle of `s` lands as one of `s`. -/
theorem leavesMe.lands_result {s u : State} (h : leavesMe s u) (slot lat : Nat) (w : RegWrite) :
    lands s (u.result slot lat w) lat w := by
  have landed := Machine.lands_result u slot lat w
  rwa [lands, h.1, h.2] at landed
theorem State.portRead_leavesMe (s : State) (pa : Nat) (gone : List Nat) : leavesMe s (s.portRead pa gone).1 := by
  obtain ⟨_, _, _, _, _, _, _, _, _, _, h⟩ := s.portRead_only pa gone
  rw [h]; exact ⟨rfl, rfl⟩
theorem State.barrierLine_leavesMe (s : State) (pa : Nat) : leavesMe s (s.barrierLine pa) := s.portRead_leavesMe pa _
theorem State.readLines_leavesMe (s : State) (l gone : List Nat) : leavesMe s (s.readLines l gone) := by
  obtain ⟨_, _, _, _, _, _, _, _, _, _, h⟩ := State.readLines_only l gone s
  rw [h]; exact ⟨rfl, rfl⟩
theorem State.l1Give_leavesMe (s : State) (p : L1Copy → Bool) : leavesMe s (s.l1Give p) := by
  obtain ⟨_, _, h⟩ := s.l1Give_only p
  rw [h]; exact ⟨rfl, rfl⟩
theorem State.l1Room_leavesMe (s : State) (core : Nat) : leavesMe s (s.l1Room core) := by
  simp only [State.l1Room]
  split
  · exact ⟨rfl, rfl⟩
  · split
    · exact s.l1Give_leavesMe _
    · exact (s.l1Give_leavesMe _).trans ⟨rfl, rfl⟩
    · exact ⟨rfl, rfl⟩
theorem State.l1Fill_leavesMe (s : State) (k : L1Copy) : leavesMe s (s.l1Fill k) :=
  (s.l1Give_leavesMe _).trans ((State.l1Room_leavesMe _ _).trans ⟨rfl, rfl⟩)
theorem State.l2Fill_leavesMe (s : State) (e pa : Nat) : leavesMe s (s.l2Fill e pa) := by
  simp only [State.l2Fill, State.l2Room]
  repeat' split
  all_goals exact ⟨rfl, rfl⟩
theorem State.countRead_leavesMe (s : State) (pa : Nat) : leavesMe s (s.countRead pa) := by
  simp only [State.countRead]
  repeat' split
  all_goals exact ⟨rfl, rfl⟩
theorem State.setLine_leavesMe (s : State) (pa : Nat) (d : LineData) : leavesMe s (s.setLine pa d) := ⟨rfl, rfl⟩
theorem State.recall_leavesMe (s : State) (line : Nat) : leavesMe s (s.recall line) := s.l1Give_leavesMe _
theorem State.homeLoad_leavesMe (s : State) (core : Option Nat) (pts : Word) (e pa : Nat) (gone : List Nat) :
    leavesMe s (s.homeLoad core pts e pa gone).s := by
  have fetched : leavesMe s (if cacheable pa then (s, (s.line pa).poison) else s.portRead pa gone).1 := by
    split
    · exact ⟨rfl, rfl⟩
    · exact s.portRead_leavesMe pa gone
  have renewed (d : LineData) := fetched.trans ((State.setLine_leavesMe _ pa d).trans
    ((State.recall_leavesMe _ (pa / 64)).trans ((State.l2Fill_leavesMe _ e pa).trans (State.countRead_leavesMe _ pa))))
  simp only [State.homeLoad]
  cases core with
  | none => exact renewed _
  | some c => exact (renewed _).trans (State.l1Fill_leavesMe _ _)
/-- A load of a line leaves the acting context and the cycle alone: its timestamp is the caller's to raise (R175). -/
theorem State.lineLoad_leavesMe (s : State) (core : Nat) (pts : Word) (e pa : Nat) (gone : List Nat) :
    leavesMe s (s.lineLoad core pts e pa gone).s := by
  have counted (r : LineRead) (p : Prop) [Decidable p] (h : leavesMe s r.s) :
      leavesMe s (if p then { r with s := r.s.count, poison := true } else r).s := by
    split
    · exact h.trans ⟨rfl, rfl⟩
    · exact h
  refine counted _ _ ?_
  split
  · split
    · exact ⟨rfl, rfl⟩
    · exact State.homeLoad_leavesMe _ _ _ _ _ _
  · exact State.homeLoad_leavesMe _ _ _ _ _ _

end Sys2Proof.Machine

/-! PROOFS. The counter forms and RSPROG (R26, R189, R246, R265, R271, R329). -/

namespace Sys2Proof.Machine

/-! Counters. -/

/-- The byte at an address, as a load of one byte (R3). -/
theorem loadBytes_one (m : List Host.Cell) (hm : Memory.wf m = true) (a : Nat) : loadBytes m a 1 = (readByte m a).toNat := by
  rw [loadBytes_succ m ((Memory.wf_iff m).1 hm).1, loadBytes_eq_sum, List.filter_eq_nil_iff.2 fun c _ => by simp]
  rfl
/-- An engine port finds the byte in memory, where no core has written in the cycle and the bank stands (R26, R152). -/
theorem State.portBytes_one (s : State) (pa : Nat) (hm : Memory.wf s.mem = true) (early : s.early = [])
    (stands : s.inRetired pa = false) : s.portBytes true pa 1 = (readByte s.mem pa).toNat := by
  rw [State.inRetired] at stands
  simp only [State.portBytes, stands, Bool.false_eq_true, if_false, if_true, State.engineMem, early, List.foldl_nil]
  exact loadBytes_one s.mem hm pa
/-- The fields of a scratchpad address give the address again (R150). -/
theorem scratchPa_fields (cluster bank off : Nat) (hc : cluster < 64) (hb : bank < 64) (ho : off < 2 ^ 22) :
    clusterOfPa (scratchPa cluster bank off) = cluster ∧ bankOfPa (scratchPa cluster bank off) = bank ∧
      scratchPa cluster bank off % 2 ^ 22 = off := by
  simp only [scratchPa, clusterOfPa, bankOfPa]
  omega
theorem scratchWord_bounds {w : Word} {b o : Nat} (h : scratchWord w = some (b, o)) : b < 64 ∧ o < 2 ^ 22 := by
  simp only [scratchWord] at h
  split at h
  · cases h
    exact ⟨Nat.mod_lt _ (by decide), Nat.mod_lt _ (by decide)⟩
  · cases h
/-- The address of a counter is that of its cluster, its bank and its offset (R150, R265). -/
theorem State.counterWord_fields {s : State} {w : Word} {n pa : Nat} (place : s.cur < 1024)
    (named : s.counterWord w n = some pa) : scratchPa (clusterOfPa pa) (bankOfPa pa) (pa % 2 ^ 22) = pa := by
  simp only [State.counterWord] at named
  split at named
  · rename_i b o word
    obtain ⟨hb, ho⟩ := scratchWord_bounds word
    have hc : s.myCluster < 64 := by simp only [State.myCluster, clusterOf]; omega
    obtain ⟨ec, eb, eo⟩ := scratchPa_fields s.myCluster b o hc hb ho
    split at named
    · cases named
      rw [ec, eb, eo]
    · cases named
  · cases named
/-- The job of a counter is a collective that has started. -/
theorem State.planeCounter_kind {s : State} {pa : Nat} {j : Job} {c : Coll} {y : CollTile}
    (tile : s.planeCounter pa = some (j, c, y)) : ∃ r, j.kind = .coll r (some c) := by
  obtain ⟨i, -, found⟩ := List.exists_of_findSome?_eq_some tile
  split at found
  · rename_i r d kind
    split at found
    · cases found
    · obtain ⟨_, -, same⟩ := Option.map_eq_some_iff.1 found
      cases same
      exact ⟨r, kind⟩
  · cases found

/-! The read of a counter's line (R21). -/

/-- A line without a latent fault, in a bank that stands, is read without effect where no core has written in the cycle. -/
theorem State.barrierLine_quiet (s : State) (pa : Nat) (faults : s.faults = []) (early : s.early = [])
    (stands : s.inRetired pa = false) : s.barrierLine pa = s := by
  rw [State.inRetired] at stands
  have read : (s.sramRead pa true).1 = s := by
    simp [State.sramRead, stands, State.sramLine, State.faultsAt, faults]
  simp only [State.barrierLine, State.portRead, read, State.portUsed, early, List.filter_nil]
  rw [← early]

/-! What PCNT and PWAIT note of a tile, and PCNT leaves behind (R271, R274). -/

/-- A tile that has been acted on: only its job changes. -/
theorem State.noteTile_only (s : State) (pa : Nat) (shows acquires : Bool) :
    ∃ l, s.noteTile pa shows acquires = { s with jobs := l } := by
  simp only [State.noteTile]
  repeat' split
  all_goals exact ⟨_, rfl⟩
theorem State.noteTile_occupy (s : State) (k n pa : Nat) (shows acquires : Bool) :
    (s.occupy k n).noteTile pa shows acquires = (s.noteTile pa shows acquires).occupy k n := by
  simp only [State.noteTile, State.planeCounter_occupy]
  repeat' split
  all_goals rfl
/-- What PCNT leaves behind beside its result and its read of the line. -/
def State.afterCount (s : State) (pa : Nat) : State :=
  match s.counterAhead s.me.work pa with
  | some (_, true) => s
  | some (_, false) => s.drawn
  | none => s.noteTile pa true false
theorem State.afterCount_only (s : State) (pa : Nat) :
    ∃ l n, s.afterCount pa = { s with jobs := l, freeCount := n } := by
  simp only [State.afterCount]
  split
  · exact ⟨_, _, rfl⟩
  · exact ⟨_, _, rfl⟩
  · obtain ⟨l, h⟩ := s.noteTile_only pa true false
    exact ⟨l, _, h⟩

/-! What the forms read of a state whose slot is held. -/

theorem State.rs_occupy (s : State) (k n : Nat) (i : SReg) : (s.occupy k n).rs i = s.rs i := rfl
theorem State.counterWord_occupy (s : State) (k n : Nat) (w : Word) (m : Nat) :
    (s.occupy k n).counterWord w m = s.counterWord w m := rfl
theorem State.liveReshard_occupy (s : State) (k n : Nat) (root block : Word) (but : Nat) :
    (s.occupy k n).liveReshard root block but = s.liveReshard root block but := rfl
theorem State.counterByte_occupy (s : State) (k n pa : Nat) : (s.occupy k n).counterByte pa = s.counterByte pa := by
  simp only [State.counterByte, State.planeCounter_occupy, State.occupy_me, State.occupy_nextId, State.counterAhead_occupy]
  rfl

section Forms
variable {d t n : SReg} {k : Fin 64} {g : PReg} {s : State} {pa : Nat}

/-- A form that takes a counter, at one (R265). -/
theorem counterOp_at (f : State → Nat → State) (bundled : s.bundled) (guard : s.pr g = true)
    (named : s.counterWord (s.rs t) 1 = some pa) :
    engineOp 1 g s (fun s => s.withCounter (s.rs t) 1 (f s)) = .next (f (s.occupy 8 1) pa) := by
  rw [engineOp_true 1 g s _ bundled guard, State.withCounter, State.rs_occupy, State.counterWord_occupy, named]
/-- An E form that traps under a true guard. -/
theorem engineOp_traps {cause sub : Nat} {addr : Word} (f : State → State) (bundled : s.bundled) (guard : s.pr g = true)
    (trap : traps (.next (f (s.occupy 8 1))) s cause sub addr) : traps (engineOp 1 g s f) s cause sub addr := by
  rwa [engineOp_true 1 g s f bundled guard]
/-- A form that takes `m` counters, at a word that names none (R265, R329). -/
theorem traps_withCounter {m : Nat} (f : Nat → State) (unnamed : s.counterWord (s.rs t) m = none)
    (free : s.issue.trap = none) : traps (.next ((s.occupy 8 1).withCounter ((s.occupy 8 1).rs t) m f)) s 0x0B 0x51 0 := by
  rw [State.withCounter, State.rs_occupy, State.counterWord_occupy, unnamed]
  exact traps_occupy s 8 1 8 0x0B 0x51 0 free

/-! PCNT (R271). -/

/-- PCNT at a counter. -/
theorem exec_pcnt (bundled : s.bundled) (guard : s.pr g = true) (named : s.counterWord (s.rs t) 1 = some pa) :
    exec (.pcnt d t g) s = .next ((((s.afterCount pa).occupy 8 1).barrierLine pa).result 8 6
      (.scalar d (BitVec.ofNat 64 (s.counterByte pa)) false)) := by
  refine (counterOp_at _ bundled guard named).trans ?_
  simp only [State.counterByte_occupy, State.occupy_me, State.occupy_nextId,
    State.counterAhead_occupy, State.noteTile_occupy, State.afterCount]
  cases s.counterAhead s.me.work pa with
  | none => rfl
  | some x =>
    obtain ⟨i, known⟩ := x
    cases known <;> rfl

/-- `v` is delivered after 6 cycles; where the read of the counter's line has no effect of its own, `after` is all that is left
behind. -/
def countsByte (o : Host.Outcome State Fault Refusal) (s : State) (pa : Nat) (d : SReg) (after : State) (v : Nat) : Prop :=
  (∃ u, o = .next u ∧ lands s u 6 (.scalar d (BitVec.ofNat 64 v) false) ∧ u.me.regs = s.me.regs ∧ u.mem = s.mem) ∧
  (s.faults = [] → s.early = [] → s.inRetired pa = false →
    yields o after 8 1 6 (.scalar d (BitVec.ofNat 64 v) false))
/-- PCNT delivers the byte of its counter. -/
theorem pcnt_counts (bundled : s.bundled) (guard : s.pr g = true) (named : s.counterWord (s.rs t) 1 = some pa) :
    countsByte (exec (.pcnt d t g) s) s pa d (s.afterCount pa) (s.counterByte pa) := by
  rw [exec_pcnt bundled guard named]
  obtain ⟨_, _, only⟩ := s.afterCount_only pa
  refine ⟨?_, fun faults early stands => ?_⟩
  · have kept : leavesMe s ((s.afterCount pa).occupy 8 1) := by rw [only]; exact ⟨rfl, rfl⟩
    have line := kept.trans (State.barrierLine_leavesMe _ pa)
    have regs : (((s.afterCount pa).occupy 8 1).barrierLine pa).me.regs = s.me.regs := by rw [line.1]
    have mem : ((s.afterCount pa).occupy 8 1).mem = s.mem := by rw [only]; rfl
    exact ⟨_, rfl, line.lands_result 8 6 _, regs, (State.portRead_mem _ pa _).trans mem⟩
  · rw [State.barrierLine_quiet _ pa (by rw [only]; exact faults) (by rw [only]; exact early) (by rw [only]; exact stands)]
    exact yields_of_result _ 8 1 6 _

theorem State.afterCount_known {i : Job} (ahead : s.counterAhead s.me.work pa = some (i, true)) : s.afterCount pa = s := by
  simp only [State.afterCount, ahead]
theorem State.afterCount_unknown {i : Job} (ahead : s.counterAhead s.me.work pa = some (i, false)) :
    s.afterCount pa = s.drawn := by
  simp only [State.afterCount, ahead]
theorem State.afterCount_started (ahead : s.counterAhead s.me.work pa = none) :
    s.afterCount pa = s.noteTile pa true false := by
  simp only [State.afterCount, ahead]
theorem State.noteTile_none (shows acquires : Bool) (tile : s.planeCounter pa = none) : s.noteTile pa shows acquires = s := by
  simp only [State.noteTile, tile]
theorem State.counterByte_known {i : Job} (ahead : s.counterAhead s.me.work pa = some (i, true)) :
    s.counterByte pa = if (i.id, pa) ∈ s.precancels then 0xC0 else 0 := by
  simp [State.counterByte, ahead, State.byteAhead]
theorem State.counterByte_unknown {i : Job} (ahead : s.counterAhead s.me.work pa = some (i, false)) :
    s.counterByte pa = (Config.freeByte s.freeCount).toNat := by
  simp only [State.counterByte, ahead]
theorem State.counterByte_free (ahead : s.counterAhead s.me.work pa = none) (tile : s.planeCounter pa = none) :
    s.counterByte pa = s.portBytes true pa 1 := by
  simp only [State.counterByte, ahead, tile]
theorem State.counterByte_tile {j : Job} {c : Coll} {y : CollTile} (ahead : s.counterAhead s.me.work pa = none)
    (tile : s.planeCounter pa = some (j, c, y)) : s.counterByte pa = y.byte := by
  simp only [State.counterByte, ahead, tile]

/-! PWAIT (R189, R271). -/

theorem waitsFor_occupy (i : Instr) (w : Wait) (free : s.issue.wait = none) :
    waitsFor (.next ((s.occupy 8 1).waitFor 8 i w)) s w :=
  ⟨_, rfl, by simp [State.waitFor, free], rfl⟩
/-- PWAIT behind a COLL that has not started (R265). -/
theorem exec_pwait_ahead {i : Job} {known : Bool} (bundled : s.bundled) (guard : s.pr g = true)
    (named : s.counterWord (s.rs t) 1 = some pa) (ended : s.issue.ended = [])
    (ahead : s.counterAhead s.me.work pa = some (i, known)) :
    exec (.pwait t k g) s = .next (if k.val = 0 ∨ (i.id, pa) ∈ s.precancels then (s.occupy 8 1).acquire pa
      else (s.occupy 8 1).waitFor 8 (.pwait t k g) (.planes pa k.val)) := by
  refine (counterOp_at _ bundled guard named).trans ?_
  simp [ended, State.counterAhead_occupy, ahead]
/-- There it waits for its planes where it needs some and no PCANCEL has come (R265). -/
theorem pwait_ahead_waits {i : Job} {known : Bool} (bundled : s.bundled) (guard : s.pr g = true)
    (named : s.counterWord (s.rs t) 1 = some pa) (ended : s.issue.ended = [])
    (ahead : s.counterAhead s.me.work pa = some (i, known)) (planes : k.val ≠ 0) (kept : (i.id, pa) ∉ s.precancels)
    (free : s.issue.wait = none) : waitsFor (exec (.pwait t k g) s) s (.planes pa k.val) := by
  rw [exec_pwait_ahead bundled guard named ended ahead, if_neg (not_or.2 ⟨planes, kept⟩)]
  exact waitsFor_occupy _ _ free
/-- PWAIT at a counter of no collective, neither one in flight nor one to come. -/
theorem exec_pwait_free (bundled : s.bundled) (guard : s.pr g = true)
    (named : s.counterWord (s.rs t) 1 = some pa) (ended : s.issue.ended = [])
    (ahead : s.counterAhead s.me.work pa = none) (tile : s.planeCounter pa = none) :
    exec (.pwait t k g) s = .next ((s.occupy 8 1).acquire pa) := by
  refine (counterOp_at _ bundled guard named).trans ?_
  simp [ended, State.counterAhead_occupy, ahead, State.planeCounter_occupy, tile]
/-- PWAIT at the counter of a tile of a collective in flight. -/
theorem exec_pwait_tile {j : Job} {c : Coll} {y : CollTile} (bundled : s.bundled) (guard : s.pr g = true)
    (named : s.counterWord (s.rs t) 1 = some pa) (ended : s.issue.ended = [])
    (ahead : s.counterAhead s.me.work pa = none) (tile : s.planeCounter pa = some (j, c, y)) :
    exec (.pwait t k g) s = .next (if y.fin = true ∨ min k.val c.planeCount ≤ y.k then (s.occupy 8 1).acquireTile pa k.val
      else (s.occupy 8 1).waitFor 8 (.pwait t k g) (.planes pa k.val)) := by
  refine (counterOp_at _ bundled guard named).trans ?_
  simp [ended, State.counterAhead_occupy, ahead, State.planeCounter_occupy, tile, planesReached]

/-- There it waits while the tile is open and short of its planes (R271). -/
theorem pwait_tile_waits {j : Job} {c : Coll} {y : CollTile} (bundled : s.bundled) (guard : s.pr g = true)
    (named : s.counterWord (s.rs t) 1 = some pa) (ended : s.issue.ended = [])
    (ahead : s.counterAhead s.me.work pa = none) (tile : s.planeCounter pa = some (j, c, y)) (isOpen : y.fin = false)
    (short : y.k < min k.val c.planeCount) (free : s.issue.wait = none) :
    waitsFor (exec (.pwait t k g) s) s (.planes pa k.val) := by
  rw [exec_pwait_tile bundled guard named ended ahead tile, if_neg (not_or.2 ⟨by simp [isOpen], Nat.not_le.2 short⟩)]
  exact waitsFor_occupy _ _ free

/-! PCANCEL (R265, R271). -/

/-- PCANCEL of one counter. -/
theorem exec_pcancel_one (bundled : s.bundled) (guard : s.pr g = true) (named : s.counterWord (s.rs t) 1 = some pa)
    (one : (s.rs n).toNat = 1) : exec (.pcancel t n g) s = .next ((s.occupy 8 1).cancelCounter pa).wakePlanes := by
  refine (engineOp_true 1 g s _ bundled guard).trans ?_
  simp [State.withCounter, State.rs_occupy, State.counterWord_occupy, one, named]
/-- The tile of a COLL that has not started is cancelled beforehand (R265). -/
theorem State.cancelCounter_ahead {i : Job} {known : Bool} (ahead : s.counterAhead s.me.work pa = some (i, known)) :
    ∃ l, s.cancelCounter pa = { s with precancels := l } ∧ ∀ p, p ∈ l ↔ p = (i.id, pa) ∨ p ∈ s.precancels := by
  simp only [State.cancelCounter, State.cancelBehind, ahead, List.contains_iff_mem]
  split
  · rename_i already
    refine ⟨_, rfl, fun p => (or_iff_right_of_imp ?_).symm⟩
    rintro rfl
    exact already
  · exact ⟨_, rfl, fun p => by simp [or_comm]⟩
theorem State.cancelCounter_started (ahead : s.counterAhead s.me.work pa = none) :
    s.cancelCounter pa = s.freezeCounter pa := by
  simp only [State.cancelCounter, State.cancelBehind, ahead]
theorem State.freezeCounter_none (tile : s.planeCounter pa = none) : s.freezeCounter pa = s := by
  simp only [State.freezeCounter, tile]
/-- The three ends of a PCANCEL at a tile: it is final, its counters are lost (R26), or it is frozen where it stands. -/
theorem State.freezeCounter_tile {j : Job} {c : Coll} {y : CollTile} (tile : s.planeCounter pa = some (j, c, y)) :
    ∃ lost frozen, s.freezeCounter pa = if y.fin = true then s
      else if s.countersLost c = true then (s.faultRecord 0x0B j.loc).putJob lost
      else (s.putJob frozen).counterWrite pa y.freeze.byte := by
  obtain ⟨r, kind⟩ := State.planeCounter_kind tile
  simp only [State.freezeCounter, tile, kind]
  exact ⟨_, _, rfl⟩
theorem State.freezeCounter_leavesBundle (s : State) (pa : Nat) : leavesBundle s (s.freezeCounter pa) := by
  cases tile : s.planeCounter pa with
  | none => rw [State.freezeCounter_none tile]; exact .refl s
  | some x =>
    obtain ⟨_, _, h⟩ := State.freezeCounter_tile tile
    rw [h]
    split
    · exact .refl s
    · split
      · obtain ⟨_, posted⟩ := s.post_eq 0x0030 2 (towerOf x.1.loc) 0x0B
        rw [State.faultRecord, posted]
        exact ⟨rfl, rfl, rfl⟩
      · exact leavesBundle.trans ⟨rfl, rfl, rfl⟩ (State.bankWrite_leavesBundle _ _ _ _ _ _ _ _)
/-- PCANCEL at a final tile changes nothing (R271). -/
theorem State.freezeCounter_final {j : Job} {c : Coll} {y : CollTile} (tile : s.planeCounter pa = some (j, c, y))
    (fin : y.fin = true) : s.freezeCounter pa = s := by
  obtain ⟨_, _, h⟩ := State.freezeCounter_tile tile
  rw [h, if_pos fin]
/-- The byte of an open tile that is frozen: CAN and FIN, and its planes as they stand (R270, R271). -/
theorem CollTile.byte_freeze {y : CollTile} (isOpen : y.fin = false) : y.freeze.byte = 128 + 64 + y.k := by
  simp [CollTile.freeze, isOpen, CollTile.byte, b2n]
/-- PCANCEL writes the counter of an open tile alone (R271). -/
theorem State.freezeCounter_mem {j : Job} {c : Coll} {y : CollTile} (tile : s.planeCounter pa = some (j, c, y))
    (isOpen : y.fin = false) (kept : s.countersLost c = false)
    (fields : scratchPa (clusterOfPa pa) (bankOfPa pa) (pa % 2 ^ 22) = pa) :
    (s.freezeCounter pa).mem = storeBytes s.mem pa 1 (128 + 64 + y.k) := by
  obtain ⟨_, _, h⟩ := State.freezeCounter_tile tile
  rw [h, if_neg (by simp [isOpen]), if_neg (by simp [kept]), State.counterWrite,
    State.bankWrite_mem _ _ _ _ _ _ _ _ _ (.inl rfl), fields, CollTile.byte_freeze isOpen]
  rfl

/-- PCANCEL behind a COLL that has not started notes the cancellation and nothing else (R265). -/
theorem pcancel_ahead {i : Job} {known : Bool} (bundled : s.bundled) (guard : s.pr g = true)
    (named : s.counterWord (s.rs t) 1 = some pa) (one : (s.rs n).toNat = 1)
    (ahead : s.counterAhead s.me.work pa = some (i, known)) :
    ∃ u, exec (.pcancel t n g) s = .next u ∧ u.issue = s.issue ∧ u.me.regs = s.me.regs ∧ u.mem = s.mem ∧
      u.jobs = s.jobs ∧ ∀ p, p ∈ u.precancels ↔ p = (i.id, pa) ∨ p ∈ s.precancels := by
  obtain ⟨l, cancelled, members⟩ :=
    State.cancelCounter_ahead (s := s.occupy 8 1) ((s.counterAhead_occupy 8 1 _ pa _).trans ahead)
  refine ⟨_, exec_pcancel_one bundled guard named one, ?_⟩
  rw [cancelled, State.wakePlanes]
  obtain ⟨issue, regs, -⟩ := State.wake_leavesBundle { s.occupy 8 1 with precancels := l } fun _ y =>
    State.planesEnd { s.occupy 8 1 with precancels := l } y
  exact ⟨issue, regs, State.wake_mem _ _, State.wake_jobs _ _, fun p => by rw [State.wake_precancels]; exact members p⟩
/-- PCANCEL at any other counter keeps the bundle in issue; its memory is as the freezing of the tile leaves it. -/
theorem pcancel_started (bundled : s.bundled) (guard : s.pr g = true) (named : s.counterWord (s.rs t) 1 = some pa)
    (one : (s.rs n).toNat = 1) (ahead : s.counterAhead s.me.work pa = none) :
    ∃ u, exec (.pcancel t n g) s = .next u ∧ leavesBundle s u ∧ u.mem = ((s.occupy 8 1).freezeCounter pa).mem := by
  have started := State.cancelCounter_started (s := s.occupy 8 1) ((s.counterAhead_occupy 8 1 _ pa _).trans ahead)
  refine ⟨_, exec_pcancel_one bundled guard named one, ?_⟩
  rw [started, State.wakePlanes, State.wake_mem]
  exact ⟨(State.freezeCounter_leavesBundle (s.occupy 8 1) pa).trans (State.wake_leavesBundle _ _), rfl⟩

/-- PCANCEL leaves a counter of no collective alone. -/
theorem pcancel_free (bundled : s.bundled) (guard : s.pr g = true) (named : s.counterWord (s.rs t) 1 = some pa)
    (one : (s.rs n).toNat = 1) (ahead : s.counterAhead s.me.work pa = none) (tile : s.planeCounter pa = none) :
    passes (exec (.pcancel t n g) s) s := by
  obtain ⟨u, run, ⟨issue, regs, inflight⟩, mem⟩ := pcancel_started bundled guard named one ahead
  rw [State.freezeCounter_none (s := s.occupy 8 1) tile] at mem
  exact ⟨u, run, issue, regs, inflight, mem⟩
/-- PCANCEL leaves the counter of a final tile alone and freezes that of an open one, unless its bank is lost (R26, R271). -/
theorem pcancel_tile {j : Job} {c : Coll} {y : CollTile} (bundled : s.bundled) (guard : s.pr g = true)
    (place : s.cur < 1024) (named : s.counterWord (s.rs t) 1 = some pa) (one : (s.rs n).toNat = 1)
    (ahead : s.counterAhead s.me.work pa = none) (tile : s.planeCounter pa = some (j, c, y)) :
    ∃ u, exec (.pcancel t n g) s = .next u ∧ u.issue = s.issue ∧ u.me.regs = s.me.regs ∧
      (y.fin = true → memSame s u) ∧
      (y.fin = false → s.countersLost c = false →
        memFrame s u pa 1 ∧ readByte u.mem pa = BitVec.ofNat 8 (128 + 64 + y.k)) := by
  obtain ⟨u, run, ⟨issue, regs, -⟩, mem⟩ := pcancel_started bundled guard named one ahead
  refine ⟨u, run, issue, regs, fun fin b => ?_, fun isOpen kept => ?_⟩
  · rw [mem, State.freezeCounter_final (s := s.occupy 8 1) tile fin, State.occupy_mem]
  · rw [State.freezeCounter_mem (s := s.occupy 8 1) tile isOpen kept (State.counterWord_fields place named)] at mem
    refine ⟨fun b outside => ?_, ?_⟩
    · rw [mem, readByte_storeBytes_outside _ _ _ _ _ outside, State.occupy_mem]
    · rw [mem, readByte_storeBytes, if_pos ⟨Nat.le_refl _, Nat.lt_succ_self _⟩]
      simp

/-! RSPROG (R246, R337). -/

/-- An M0 access of a state that has the registers, the memory and the cycle of `s` is a load that begins there (R71). -/
theorem loading_outstanding {u : State} (ws : List RegWrite) (ecc : Bool) (regs : u.me.regs = s.me.regs) (mem : u.mem = s.mem)
    (cycle : u.cycle = s.cycle) : loading (.next (u.outstanding ws ecc)) s ws := by
  refine ⟨_, rfl, regs, mem, _, List.mem_append_right _ (List.mem_singleton_self _), rfl, ?_⟩
  rw [cycle, Config.m0Latency]
  exact Nat.le_add_right _ _
/-- RSPROG at a block that a job of the address space runs. -/
theorem exec_rsprog_live {cursor status : Nat} (bundled : s.bundled) (guard : s.pr g = true)
    (aligned : (s.rs t).toNat % 64 = 0) (live : s.liveReshard s.me.ptroot (s.rs t) 0 = some (cursor, status)) :
    exec (.rsprog d t g) s = .next ((s.occupy 8 1).result 8 6
      (.scalar d (BitVec.ofNat 64 (cursor % 2 ^ 48 * 2 ^ 16 + status * 2 ^ 8 + 1)) false)) := by
  refine (engineOp_true 1 g s _ bundled guard).trans ?_
  simp only [State.rs_occupy, State.liveReshard_occupy, State.occupy_me, aligned, live, ne_eq, not_true, if_false]
/-- RSPROG at a block that no job runs reads its progress record in memory. -/
theorem rsprog_reads {c : Chased} (bundled : s.bundled) (guard : s.pr g = true) (aligned : (s.rs t).toNat % 64 = 0)
    (idle : s.liveReshard s.me.ptroot (s.rs t) 0 = none) (walk : s.chaseMe (s.rs t + 256) .read = c) (ok : c.x.st = .ok) :
    let r := ((s.occupy 8 1).readLines c.tables).lineLoad (coreOf s.cur) (wmax s.me.pts c.seen) c.x.e c.x.pa s.retired
    loading (exec (.rsprog d t g) s) s
      [.scalar d (BitVec.ofNat 64 (r.data / 2 ^ 64 % 2 ^ 48 * 2 ^ 16 + r.data % 2 ^ 16)) false] := by
  subst walk
  intro r
  have run : exec (.rsprog d t g) s = .next ((r.s.modMe fun k => { k with pts := r.pts }).outstanding
      [.scalar d (BitVec.ofNat 64 (r.data / 2 ^ 64 % 2 ^ 48 * 2 ^ 16 + r.data % 2 ^ 16)) false] false) := by
    refine (engineOp_true 1 g s _ bundled guard).trans ?_
    rw [State.chaseMe] at ok
    simp only [State.rs_occupy, State.liveReshard_occupy, State.occupy_me, chase_occupy, aligned, idle, ok, ne_eq,
      not_true, if_false]
    rfl
  obtain ⟨me, cycle⟩ : leavesMe (s.occupy 8 1) r.s :=
    (State.readLines_leavesMe _ _ _).trans (State.lineLoad_leavesMe _ _ _ _ _ _)
  rw [run]
  exact loading_outstanding _ _ (by rw [State.modMe_me, me]; rfl) (by simp [r]) cycle
/-- Where that record cannot be reached RSPROG delivers an ended job of status 0x12 (R337). -/
theorem rsprog_unreached {c : Chased} (bundled : s.bundled) (guard : s.pr g = true) (aligned : (s.rs t).toNat % 64 = 0)
    (idle : s.liveReshard s.me.ptroot (s.rs t) 0 = none) (walk : s.chaseMe (s.rs t + 256) .read = c)
    (failed : c.x.st = .format ∨ c.x.st = .absent ∨ c.x.st = .protect ∨ c.x.st = .chain) :
    loading (exec (.rsprog d t g) s) s [.scalar d 0x1204#64 false] := by
  have run : exec (.rsprog d t g) s = .next (((s.occupy 8 1).readLines c.tables).outstanding
      [.scalar d 0x1204#64 false] false) := by
    refine (engineOp_true 1 g s _ bundled guard).trans ?_
    rw [State.chaseMe] at walk
    simp only [State.rs_occupy, State.liveReshard_occupy, State.occupy_me, chase_occupy, aligned, idle, walk, ne_eq,
      not_true, if_false]
    rcases failed with h | h | h | h <;> simp only [h]
  obtain ⟨me, cycle⟩ := State.readLines_leavesMe (s.occupy 8 1) c.tables (s.occupy 8 1).retired
  rw [run]
  exact loading_outstanding _ _ (by rw [me]; rfl) (by simp) cycle

/-! Traps (R265, R329, R337). -/

theorem pcnt_traps (bundled : s.bundled) (guard : s.pr g = true) (free : s.issue.trap = none)
    (unnamed : s.counterWord (s.rs t) 1 = none) : traps (exec (.pcnt d t g) s) s 0x0B 0x51 0 :=
  engineOp_traps _ bundled guard (traps_withCounter _ unnamed free)
theorem pwait_traps (bundled : s.bundled) (guard : s.pr g = true) (free : s.issue.trap = none)
    (unnamed : s.counterWord (s.rs t) 1 = none) : traps (exec (.pwait t k g) s) s 0x0B 0x51 0 :=
  engineOp_traps _ bundled guard (traps_withCounter _ unnamed free)
theorem pcancel_traps_count (bundled : s.bundled) (guard : s.pr g = true) (free : s.issue.trap = none)
    (bad : (s.rs n).toNat = 0 ∨ 65536 < (s.rs n).toNat) : traps (exec (.pcancel t n g) s) s 0x0B 0x51 0 := by
  refine engineOp_traps _ bundled guard ?_
  rw [if_pos (by rw [Bool.or_eq_true, decide_eq_true_eq, decide_eq_true_eq]; exact bad)]
  exact traps_occupy s 8 1 8 0x0B 0x51 0 free
theorem pcancel_traps_word (bundled : s.bundled) (guard : s.pr g = true) (free : s.issue.trap = none)
    (nonzero : 0 < (s.rs n).toNat) (few : (s.rs n).toNat ≤ 65536)
    (unnamed : s.counterWord (s.rs t) (s.rs n).toNat = none) : traps (exec (.pcancel t n g) s) s 0x0B 0x51 0 := by
  refine engineOp_traps _ bundled guard ?_
  rw [if_neg (by rw [Bool.or_eq_true, decide_eq_true_eq, decide_eq_true_eq, State.rs_occupy]; omega)]
  exact traps_withCounter _ unnamed free
theorem rsprog_traps (bundled : s.bundled) (guard : s.pr g = true) (free : s.issue.trap = none)
    (unaligned : (s.rs t).toNat % 64 ≠ 0) : traps (exec (.rsprog d t g) s) s 0x0B 0x42 0 := by
  have block : ((s.occupy 8 1).rs t).toNat % 64 ≠ 0 := unaligned
  refine engineOp_traps _ bundled guard ?_
  rw [if_pos block]
  exact traps_occupy s 8 1 8 0x0B 0x42 0 free

end Forms

/-- Settles O43: each form by the three places that a counter may have: behind a COLL that has not started, at a tile of a
collective in flight, or at neither. -/
theorem planeForms : Obligations.PlaneForms := by
  intro d t n k g s bundled guard place count
  refine ⟨fun pa named => ?_, fun free => ?_, fun aligned => ?_⟩
  · intro counts goesOn
    have delivered : counts (s.afterCount pa) (s.counterByte pa) := pcnt_counts bundled guard named
    refine ⟨fun i known ahead => ?_, fun ahead tile => ?_, fun j c y ahead tile => ?_⟩
    · refine ⟨?_, ?_, fun ended => ⟨fun goes => ?_, pwait_ahead_waits bundled guard named ended ahead⟩,
        fun one => pcancel_ahead bundled guard named one ahead⟩
      · rintro rfl
        rw [State.afterCount_known ahead, State.counterByte_known ahead] at delivered
        exact ⟨fun cancelled => by rwa [if_pos cancelled] at delivered, fun kept => by rwa [if_neg kept] at delivered⟩
      · rintro rfl
        rw [State.afterCount_unknown ahead, State.counterByte_unknown ahead] at delivered
        exact ⟨_, BitVec.isLt _, delivered⟩
      · exact (exec_pwait_ahead bundled guard named ended ahead).trans (by rw [if_pos goes])
    · rw [State.afterCount_started ahead, State.noteTile_none _ _ tile, State.counterByte_free ahead tile] at delivered
      exact ⟨delivered, s.portBytes_one pa, fun ended => exec_pwait_free bundled guard named ended ahead tile,
        fun one => pcancel_free bundled guard named one ahead tile⟩
    · rw [State.afterCount_started ahead, State.counterByte_tile ahead tile] at delivered
      refine ⟨delivered, fun ended => ⟨fun reached => ?_, pwait_tile_waits bundled guard named ended ahead tile⟩,
        fun one => pcancel_tile bundled guard place named one ahead tile⟩
      rw [exec_pwait_tile bundled guard named ended ahead tile, if_pos reached]
  · refine ⟨fun unnamed i form => ?_, pcancel_traps_count bundled guard free, pcancel_traps_word bundled guard free,
      rsprog_traps bundled guard free⟩
    rw [List.mem_cons, List.mem_singleton] at form
    obtain rfl | rfl := form
    · exact pcnt_traps bundled guard free unnamed
    · exact pwait_traps bundled guard free unnamed
  · refine ⟨fun cursor status live => ?_, fun idle ok => rsprog_reads bundled guard aligned idle rfl ok,
      fun idle failed => rsprog_unreached bundled guard aligned idle rfl failed⟩
    rw [exec_rsprog_live bundled guard aligned live]
    exact yields_of_result s 8 1 6 _

end Sys2Proof.Machine

/-! PROOFS. The completion of a collective (R265, R267, R274): one behind which a PCANCEL still waits to act. -/

namespace Sys2Proof.Machine

theorem exec_collComplete (id : Nat) (s : State) : exec (.collComplete id) s = execCollComplete id s := rfl

/-- A collective that has finished, as its module has no tile of it; its record stands at 1 GiB + 0x6000. -/
def finishedColl : Coll :=
  { version := 0x0300, op := 1, plane := true, fmt := 0, cid := 1, members := 2, rank := 1, tileCount := 1, src := 0, dst := 0
    cnt := 0x1000000000000, group := [1, 0], whole := false, result := 0, drops := 0, tiles := [], cancels := [], told := false
    read := true }
/-- Its COLL, which reports to dependence counter 5. -/
def finishedJob : Job :=
  { bankedFampw with kind := .coll 0x40006000#64 (some finishedColl), completion := .counter 5, started := true }
/-- Another collective of the same work, with one open tile, whose counter is the first byte of the scratchpad (R150). -/
def openColl : Coll :=
  { finishedColl with
    cid := 2, rank := 0, group := [0, 1]
    tiles := [{ headers := [], planes := [], wholes := [], k := 0, fin := false, can := false, shown := false
                acquired := false, spoiled := false }] }
def openJob : Job := { finishedJob with id := 2, kind := .coll 0x40006040#64 (some openColl) }
/-- Both are in flight, and a PCANCEL of that counter waits for the first. Directory entry 0 of the table at 0 names the table
itself, entry 1 is a leaf of 1 GiB at 0 that can be written (R161 to R163). -/
def cancelledState : State :=
  { State.reset with
    mem := storeBytes [] 0 16 (2 ^ 63 + (2 ^ 63 + 2 ^ 62 + 2 ^ 57 + 2 ^ 56 + (2 ^ 17 - 1) * 2 ^ 12 + 2 ^ 11) * 2 ^ 64)
    jobs := [finishedJob, openJob], precancels := [(finishedJob.id, openColl.cnt)] }

/-- The job as its completion leaves it, and its write of OUT (R266). -/
def toldJob : Job := { finishedJob with kind := .coll 0x40006000#64 (some { finishedColl with told := true }) }
def outWrite : (State × Word) ⊕ (State × EngineStop) :=
  State.jobWrite toldJob false 2 (cancelledState.putJob toldJob) toldJob.pts (0x40006000#64 + 48) 8 0

/-- OUT is written, and that write leaves the counter of the other collective at 0. -/
theorem outWrite_leaves_counter : ∃ v, outWrite = .inl v ∧ readByte v.1.mem openColl.cnt = 0 := by
  have writes : (match outWrite with
    | .inl v => decide (readByte v.1.mem openColl.cnt = 0) | .inr _ => false) = true := by decide +kernel
  split at writes
  · next v written => exact ⟨v, written, of_decide_eq_true writes⟩
  · cases writes
/-- The completion as a whole freezes that collective's tile: its counter reads FIN and CAN (R270, R271). -/
theorem cancelledState_freezes_counter :
    ∃ t, execCollComplete finishedJob.id cancelledState = .next t ∧ readByte t.mem openColl.cnt = 0xC0 := by
  have freezes : (match execCollComplete finishedJob.id cancelledState with
    | .next t => decide (readByte t.mem openColl.cnt = 0xC0) | _ => false) = true := by decide +kernel
  split at freezes
  · next t run => exact ⟨t, run, of_decide_eq_true freezes⟩
  · cases freezes

/-- Refutes O51: a completion does not always leave memory as the write of OUT does. The state may hold a PCANCEL that waits
for the collective's COLL and has found no tile there: when the job goes, it acts on what stands before that COLL (R265), here
on an open tile of another collective, whose counter turns from 0 to 0xC0. The clauses of the start allow for such a PCANCEL,
each by what it says of `precancels`; that of the completion does not. -/
theorem not_collectiveEvents : ¬ Obligations.CollectiveEvents := by
  intro holds
  obtain ⟨v, written, before⟩ := outWrite_leaves_counter
  obtain ⟨t, run, after⟩ := cancelledState_freezes_counter
  obtain ⟨-, -, -, -, -, completes, -⟩ := holds finishedJob.id finishedJob 0x40006000#64 cancelledState rfl rfl
  obtain ⟨-, finished⟩ := completes finishedColl 5 rfl rfl
  obtain ⟨reports, -⟩ := finished rfl (by decide)
  obtain ⟨t', run', -, unchanged, -⟩ := reports v written rfl
  rw [exec_collComplete, run] at run'
  cases run'
  rw [unchanged, before] at after
  cases after

end Sys2Proof.Machine
